-- ==== Sys2Proof/Word.lean ====
section
/-! DEFINITION. The machine's words: bytes, report words, speeds. -/

namespace Sys2Proof

/-- One byte of a report or of a channel word (00_scope.md section 5). -/
abbrev Byte := BitVec 8

/-- The 16-bit word of an `RPT16` report (30_encoding.md R45). -/
abbrev ReportWord := BitVec 16

/-- A speed as the registers hold it: 16 bits, two's complement (10_state.md R10, R24).
Its integer value is `BitVec.toInt`. -/
abbrev Speed := BitVec 16

end Sys2Proof
end

