-- ==== Sys2Proof/Config.lean ====
section
/-! DEFINITION. What is fixed for the machine: the six named parameters of the spec, its two open
parameters, and the free values that stand for the environment's choices. -/

namespace Sys2Proof

/-- Whose move comes next (43_control_loop.md section 2): the block's own (it polls in phase `POLL`,
it waits in phase `KICK`), the millisecond time base's, or reset's. -/
inductive Turn where
  | block
  | tick
  | reset
  deriving DecidableEq, Repr, Inhabited

namespace Config

/-! The six parameters of 00_scope.md R5, with the values the source gives (92_eei_decisions.md D18). -/

/-- `REPORT_LEN`: the exact length in bytes of an acceptable report. -/
abbrev reportLen : Nat := 2

/-- `FULL_SCALE`: the magnitude of full speed. -/
abbrev fullScale : Nat := 32767

/-- `DUTY_MAX`: the largest duty percent. -/
abbrev dutyMax : Nat := 100

/-- `MIN_DUTY`: the floor applied to every nonzero duty. -/
abbrev minDuty : Nat := 40

/-- `KICK_DUTY`: the duty of the kickstart pulse. -/
abbrev kickDuty : Nat := 100

/-- `KICK_MS`: the duration of the kickstart pulse in milliseconds. -/
abbrev kickMs : Nat := 150

/-! The two parameters 00_scope.md R6 leaves OPEN. -/

/-- `MAX_POLL_LEN`: the largest length a poll may deliver. It bounds the free answers only
(log 2, log 18). -/
opaque maxPollLen : Nat

/-- `F_CLK_HZ`: the logic clock's frequency. No rule reads it (log 18). -/
opaque clkHz : Nat

/-! Free values: the environment's choices beyond what the state schedules. -/

/-- Who moves next where the state schedules nothing: any interleaving (log 1). -/
opaque freeTurn : Nat → Turn

/-- What the report source answers where the state schedules nothing: any presence, length and
bytes (20_memory.md R31, log 2). -/
opaque freeAnswer : Nat → Option (List Byte)

end Config

end Sys2Proof
end

