-- ==== Sys2Proof/Syntax.lean ====
section
/-! DEFINITION. The instructions: one constructor per row of spec/opcode_table.json. -/

namespace Sys2Proof

/-- The two drive channels: A is the forward channel, numbered 0, and B the reverse channel,
numbered 1 (20_memory.md R38, 92_eei_decisions.md D1). -/
inductive Channel where
  | A
  | B
  deriving DecidableEq, Repr

/-- The four command classes of the input report (30_encoding.md R48) and the two output words a
channel write carries (20_memory.md R33, 30_encoding.md R51). -/
inductive Instr where
  /-- `SPD.STOP`, word 0x0000 (40_decoder.md R61). -/
  | spdStop
  /-- `SPD.NEGMAX`, word 0x8000 (40_decoder.md R64). -/
  | spdNegmax
  /-- `SPD.FWD`: `v` is the word's low 15 bits, not 0 (40_decoder.md R62). -/
  | spdFwd (v : BitVec 15)
  /-- `SPD.REV`: `v` is the word's low 15 bits, not 0 (40_decoder.md R63). -/
  | spdRev (v : BitVec 15)
  /-- `CH.OFF`: `SetOff(c)` (20_memory.md R33). -/
  | chOff (c : Channel)
  /-- `CH.DUTY`: `SetDuty(c, p)`, `p` a percent in [0, 100] (20_memory.md R33). -/
  | chDuty (c : Channel) (p : BitVec 7)
  deriving DecidableEq, Repr

/-- The two sides a word can stand on: the report source (format `RPT16`) and a drive channel's
write port (format `CHREG8`). -/
inductive Port where
  | report
  | channel
  deriving DecidableEq, Repr

/-- The side an instruction's words stand on (30_encoding.md R45, R51). -/
def Instr.port : Instr → Port
  | .spdStop => .report
  | .spdNegmax => .report
  | .spdFwd _ => .report
  | .spdRev _ => .report
  | .chOff _ => .channel
  | .chDuty _ _ => .channel

end Sys2Proof
end

