-- ==== Sys2Proof/WellFormed.lean ====
section
/-! DEFINITION. Which instruction terms the spec's encodings can spell. -/

namespace Sys2Proof

/-- The constraints of spec/opcode_table.json: `v != 0` for `SPD.FWD` and `SPD.REV` (their word with
`v = 0` is `SPD.STOP` or `SPD.NEGMAX`), and `p` in [0, 100] for `CH.DUTY` (20_memory.md R33). -/
def Instr.wellFormed : Instr → Bool
  | .spdStop => true
  | .spdNegmax => true
  | .spdFwd v => v != 0
  | .spdRev v => v != 0
  | .chOff _ => true
  | .chDuty _ p => decide (p.toNat ≤ Config.dutyMax)

end Sys2Proof
end

