-- ==== Sys2Proof/Decode.lean ====
section
/-! DEFINITION. From bytes to instructions and back, from the encoding tables of 30_encoding.md and
10_state.md R24. -/

namespace Sys2Proof

/-- Why a byte string spells no instruction. None of these is a fault of the block. -/
inductive Reject where
  /-- The length is not that of the format: a report so rejected is ignored (30_encoding.md R47,
  R50; 40_decoder.md R60). Safe: the spec gives this outcome. -/
  | badLength
  /-- A `CHREG8` pattern that is never produced, 0x01..0x7F or 0xE5..0xFF (10_state.md R24,
  93_implementation_defined.md U16). Safe. -/
  | reservedChannelWord
  /-- The second byte of a channel word is neither 0 nor 1 (log 5). Safe. -/
  | badChannelNumber
  deriving DecidableEq, Repr

/-- What the decoder answers, on any bytes. -/
inductive Decoded where
  | ok (i : Instr)
  | rejected (r : Reject)
  deriving DecidableEq, Repr

/-! ## Bits and bytes -/

/-- `w = b[1] ++ b[0]`: the first byte is the low byte (20_memory.md R29). -/
def wordOf (b0 b1 : Byte) : ReportWord := b1 ++ b0

/-- The two bytes of a report word in arrival order (20_memory.md R29). -/
def bytesOf (w : ReportWord) : List Byte := [w.extractLsb' 0 8, w.extractLsb' 8 8]

/-- Bit `S` of a report word (30_encoding.md R45). -/
def signBit (w : ReportWord) : Bool := w.msb

/-- Bits `V` of a report word (30_encoding.md R45). -/
def lowBits (w : ReportWord) : BitVec 15 := w.extractLsb' 0 15

/-- The word with sign bit 0 and low bits `v` (30_encoding.md R48, `0vvvvvvvvvvvvvvv`). -/
def fwdWord (v : BitVec 15) : ReportWord := 0#1 ++ v

/-- The word with sign bit 1 and low bits `v` (30_encoding.md R48, `1vvvvvvvvvvvvvvv`). -/
def revWord (v : BitVec 15) : ReportWord := 1#1 ++ v

/-- The number of a channel: A = 0, B = 1 (20_memory.md R38). -/
def channelNumber : Channel → Byte
  | .A => 0
  | .B => 1

/-- The channel of a number (20_memory.md R38). -/
def channelOfNumber (n : Byte) : Option Channel :=
  if n = 0 then some .A else if n = 1 then some .B else none

/-! ## Decoding -/

/-- The class of a report word: the two exact rows first, then the sign bit (30_encoding.md R48). -/
def decodeReportWord (w : ReportWord) : Instr :=
  if w = 0x0000 then .spdStop
  else if w = 0x8000 then .spdNegmax
  else if signBit w then .spdRev (lowBits w)
  else .spdFwd (lowBits w)

/-- A delivered report: length first, then the word's class (30_encoding.md R47, R48). -/
def decodeReport (buf : List Byte) : Decoded :=
  if buf.length = Config.reportLen then .ok (decodeReportWord (wordOf (buf.getD 0 0) (buf.getD 1 0)))
  else .rejected .badLength

/-- A `CHREG8` value for channel `c`: bit 7 is `EN`, bits 6:0 are `PCT` (10_state.md R24). -/
def decodeChannelValue (c : Channel) (v : Byte) : Decoded :=
  if v = 0x00 then .ok (.chOff c)
  else if v.msb && decide ((v.extractLsb' 0 7).toNat ≤ Config.dutyMax) then
    .ok (.chDuty c (v.extractLsb' 0 7))
  else .rejected .reservedChannelWord

/-- A word at a channel's write port: the `CHREG8` value, then the number of the channel (log 5). -/
def decodeChannel : List Byte → Decoded
  | [v, n] =>
    match channelOfNumber n with
    | some c => decodeChannelValue c v
    | none => .rejected .badChannelNumber
  | _ => .rejected .badLength

/-- The decoder: total on any bytes at either port. -/
def decode : Port → List Byte → Decoded
  | .report, buf => decodeReport buf
  | .channel, buf => decodeChannel buf

/-! ## Encoding -/

/-- The `CHREG8` byte of `DUTY(p)`: `EN` = 1, then the percent (10_state.md R24). -/
def dutyByte (p : BitVec 7) : Byte := 1#1 ++ p

/-- The bytes of an instruction, as its row of the opcode table spells them. -/
def encode : Instr → List Byte
  | .spdStop => bytesOf 0x0000
  | .spdNegmax => bytesOf 0x8000
  | .spdFwd v => bytesOf (fwdWord v)
  | .spdRev v => bytesOf (revWord v)
  | .chOff c => [0x00, channelNumber c]
  | .chDuty c p => [dutyByte p, channelNumber c]

/-! ## The opcode table's numbering -/

/-- The bytes of a table word of `nbits` bits, first byte lowest, and the port its format stands at:
16 bits are an `RPT16` report; 8 bits are a `CHREG8` value, whose channel byte the table gives no
bits and is 0, channel A (log 5). No row has another length. -/
def tableBytes (nbits w : Nat) : Option (Port × List Byte) :=
  if nbits = 16 then some (.report, [BitVec.ofNat 8 w, BitVec.ofNat 8 (w / 256)])
  else if nbits = 8 then some (.channel, [BitVec.ofNat 8 w, 0])
  else none

/-- The instruction the decoder reads from a table word. -/
def decodeTableWord (nbits w : Nat) : Option Instr :=
  match tableBytes nbits w with
  | some (port, bytes) =>
    match decode port bytes with
    | .ok i => some i
    | .rejected _ => none
  | none => none

end Sys2Proof
end

