-- ==== Sys2Proof/Machine/State.lean ====
section
/-! DEFINITION. The state of the block, the reasons it can stop, and the state after reset. -/

namespace Sys2Proof.Machine

/-- A duty percent: an integer in [0, `DUTY_MAX`]. 7 bits unsigned at the pins, where 101..127 are
never held (10_state.md R11, R13, R24; log 10). -/
abbrev Percent := Fin (Config.dutyMax + 1)

/-- A channel value: `OFF` and `DUTY(0)` are different values (10_state.md R13). -/
inductive ChVal where
  | off
  | duty (p : Percent)
  deriving DecidableEq, Repr

/-- The sequencing position (10_state.md R14). -/
inductive Phase where
  | poll
  | kick
  deriving DecidableEq, Repr

/-- An outward action of the block, an element of the trace (10_state.md R18). -/
inductive OutEvent where
  | off (c : Channel)
  | duty (c : Channel) (p : Percent)
  | delay (ms : Nat)
  deriving DecidableEq, Repr

/-- The block's decision value: a duty and a direction (00_scope.md glossary, 41_mapper.md R70). -/
structure DriveCommand where
  duty : Percent
  forward : Bool
  deriving DecidableEq, Repr

/-- An event of the step relation (43_control_loop.md section 2). -/
inductive Event where
  /-- The block polls and the report source answers `r`. -/
  | poll (r : Option (List Byte))
  /-- One millisecond elapses. -/
  | tick
  /-- The reset event. -/
  | reset
  deriving DecidableEq, Repr

/-- Everything the spec gives the machine (10_state.md R10 to R18), and below it the environment's
side of the boundary, which is the model's own. -/
structure State where
  /-- `last_speed` (R10). -/
  lastSpeed : Speed
  /-- `last_duty` (R11). -/
  lastDuty : Percent
  /-- `last_fwd` (R11). -/
  lastFwd : Bool
  /-- `ch[A]` (R13). -/
  chA : ChVal
  /-- `ch[B]` (R13). -/
  chB : ChVal
  /-- `phase` (R14). -/
  phase : Phase
  /-- `kick_rem`, 8 bits (R15, 60_exceptions.md R136). -/
  kickRem : BitVec 8
  /-- `tgt_speed` (R16). -/
  tgtSpeed : Speed
  /-- `tgt_duty` (R16). -/
  tgtDuty : Percent
  /-- `tgt_fwd` (R16). -/
  tgtFwd : Bool
  /-- `out`, the ghost trace, in order (R18). -/
  out : List OutEvent
  /-- Model: whose move comes next, as far as it is scheduled (log 1). -/
  turns : List Turn
  /-- Model: what the next polls are answered, as far as it is scheduled (log 2). -/
  answers : List (Option (List Byte))
  /-- Model: how many free values have been drawn (log 1, log 2). -/
  freeIx : Nat
  /-- Model: a `CHREG8` word laid at the channel write port from outside; no rule of the machine
  fills it (log 4). -/
  chPort : Option (List Byte)
  deriving DecidableEq, Repr

/-- The block raises nothing: no exception, no fault state, no stuck state (60_exceptions.md R125,
93_implementation_defined.md). So there is no fault, and nobody raises one. -/
inductive Fault where
  deriving DecidableEq, Repr

/-- Why the model gives no next state. -/
inductive Refusal where
  /-- Raised by `exec` alone, for an instruction without a meaning. Safe. -/
  | notModelled (mnemonic : String)
  /-- Raised by `exec` for a report, and by the poll event, in phase `KICK`: no poll step exists
  there and a model must not accept one (43_control_loop.md R106, 30_encoding.md R52). A step never
  raises it. Safe. -/
  | pollInKick
  /-- Raised by `exec` for `CH.DUTY` with a percent above 100: outside the interface's contract and
  never produced (20_memory.md R34). Safe. -/
  | dutyOutOfContract
  /-- Raised by a step whose channel port holds bytes that spell no channel value
  (10_state.md R24, 93_implementation_defined.md U16). Safe. -/
  | reservedChannelWord
  deriving DecidableEq, Repr

/-- The state after reset (10_state.md R22). The last four fields are the model's own: nothing
scheduled, nothing drawn, no word at the port (log 1, log 2, log 4). -/
def State.reset : State where
  lastSpeed := 0
  lastDuty := 0
  lastFwd := true
  chA := .off
  chB := .off
  phase := .poll
  kickRem := 0
  tgtSpeed := 0
  tgtDuty := 0
  tgtFwd := true
  out := []
  turns := []
  answers := []
  freeIx := 0
  chPort := none

end Sys2Proof.Machine
end

