-- ==== Sys2Proof/Machine/Operands.lean ====
section
/-! DEFINITION. The operands of the instructions: speeds and percents. -/

namespace Sys2Proof.Machine

/-- Saturation at decode time: raw -32768 becomes -32767, every other value stays
(40_decoder.md R64, 92_eei_decisions.md D3). -/
def saturate (raw : Speed) : Speed := if raw = 0x8000 then 0x8001 else raw

/-- The speed of `SPD.STOP` (40_decoder.md R61). -/
def stopSpeed : Speed := 0

/-- The speed of `SPD.NEGMAX` (40_decoder.md R64). -/
def negmaxSpeed : Speed := saturate 0x8000

/-- The speed of `SPD.FWD v` (40_decoder.md R62). -/
def fwdSpeed (v : BitVec 15) : Speed := saturate (fwdWord v)

/-- The speed of `SPD.REV v` (40_decoder.md R63). Saturation acts only on the ill-formed `v = 0`
(log 21). -/
def revSpeed (v : BitVec 15) : Speed := saturate (revWord v)

/-- The NormalizedSpeed a report instruction carries; a channel word carries none. -/
def speedOf : Instr → Option Speed
  | .spdStop => some stopSpeed
  | .spdNegmax => some negmaxSpeed
  | .spdFwd v => some (fwdSpeed v)
  | .spdRev v => some (revSpeed v)
  | .chOff _ => none
  | .chDuty _ _ => none

/-- The Speed Decoder `Decode(buf)` (40_decoder.md R60), through the command classes. -/
def decodeSpeed (buf : List Byte) : Option Speed :=
  match decode .report buf with
  | .ok i => speedOf i
  | .rejected _ => none

/-- The percent of `CH.DUTY`, where the interface's contract admits it (20_memory.md R33, R34). -/
def percentOf (p : BitVec 7) : Option Percent :=
  if h : p.toNat ≤ Config.dutyMax then some ⟨p.toNat, Nat.lt_succ_of_le h⟩ else none

end Sys2Proof.Machine
end

