-- ==== Sys2Proof/Machine/Ops.lean ====
section
/-! DEFINITION. The named operations on registers, channels, trace and the environment's side.
There is no exception to take and none to return from (60_exceptions.md R125, R133), and no memory
(10_state.md R25). -/

namespace Sys2Proof.Machine

/-! ## Channels -/

/-- `chan(true) = A`, `chan(false) = B` (00_scope.md R6, section 5). -/
def chan (forward : Bool) : Channel := if forward then .A else .B

/-- `opp(A) = B`, `opp(B) = A` (00_scope.md section 5). -/
def opp : Channel → Channel
  | .A => .B
  | .B => .A

/-- `x[ch[c]]`. -/
def State.ch (s : State) : Channel → ChVal
  | .A => s.chA
  | .B => s.chB

/-- `x[ch[c]] <- v`. -/
def State.setCh (s : State) (c : Channel) (v : ChVal) : State :=
  match c with
  | .A => { s with chA := v }
  | .B => { s with chB := v }

/-- `emit e` (10_state.md R18). -/
def State.emit (s : State) (e : OutEvent) : State := { s with out := s.out ++ [e] }

/-- The trace event of a channel write. -/
def writeEvent (c : Channel) : ChVal → OutEvent
  | .off => .off c
  | .duty p => .duty c p

/-- `ChWrite(c, v)`: the block's only outward write (20_memory.md R33). The collaborator's answer
is ignored (60_exceptions.md R128, log 14). -/
def State.chWrite (s : State) (c : Channel) (v : ChVal) : State :=
  (s.setCh c v).emit (writeEvent c v)

/-- `SetOff(c)` (20_memory.md R33). -/
def State.setOff (s : State) (c : Channel) : State := s.chWrite c .off

/-- `SetDuty(c, p)` (20_memory.md R33). -/
def State.setDuty (s : State) (c : Channel) (p : Percent) : State := s.chWrite c (.duty p)

/-! ## ControllerState, the latches and the wait -/

/-- The last applied command, the sequencer's operand (42_sequencer.md R80). -/
def State.last (s : State) : DriveCommand := ⟨s.lastDuty, s.lastFwd⟩

/-- The command in flight (10_state.md R16). -/
def State.tgt (s : State) : DriveCommand := ⟨s.tgtDuty, s.tgtFwd⟩

/-- `commit(s, c)` (43_control_loop.md R103). -/
def State.commit (s : State) (speed : Speed) (c : DriveCommand) : State :=
  { s with lastSpeed := speed, lastDuty := c.duty, lastFwd := c.forward }

/-- Latch the command in flight (43_control_loop.md R103). -/
def State.latch (s : State) (speed : Speed) (c : DriveCommand) : State :=
  { s with tgtSpeed := speed, tgtDuty := c.duty, tgtFwd := c.forward }

/-- Call `Delay(KICK_MS)`: the wait begins (43_control_loop.md R103, 60_exceptions.md R135). -/
def State.beginWait (s : State) : State :=
  { s.emit (.delay Config.kickMs) with kickRem := BitVec.ofNat 8 Config.kickMs, phase := .kick }

/-- The duty of the kickstart pulse. -/
def kickPercent : Percent := ⟨Config.kickDuty, by decide⟩

/-! ## Reset -/

/-- The reset event: every register of the block at its reset value (70_reset_and_hazards.md R145),
the environment's side as it was (log 12). -/
def State.resetBlock (s : State) : State :=
  { State.reset with turns := s.turns, answers := s.answers, freeIx := s.freeIx, chPort := s.chPort }

/-! ## The environment's choices -/

/-- Whose move comes next: the schedule's head, or a free value (log 1). -/
def State.takeTurn (s : State) : Turn × State :=
  match s.turns with
  | t :: ts => (t, { s with turns := ts })
  | [] => (Config.freeTurn s.freeIx, { s with freeIx := s.freeIx + 1 })

/-- `PollReport()`: the schedule's head, or a free value of at most `MAX_POLL_LEN` bytes
(20_memory.md R31, log 2). A taken answer is consumed. -/
def State.takeAnswer (s : State) : Option (List Byte) × State :=
  match s.answers with
  | r :: rs => (r, { s with answers := rs })
  | [] => ((Config.freeAnswer s.freeIx).map (List.take Config.maxPollLen),
      { s with freeIx := s.freeIx + 1 })

end Sys2Proof.Machine
end

