-- ==== Sys2Proof/Machine/Channels.lean ====
section
/-! DEFINITION. The meanings of the two output words: a channel write (20_memory.md R33). -/

namespace Sys2Proof.Machine

/-- `CH.OFF`: `SetOff(c)` (20_memory.md R33). -/
def execChOff (c : Channel) (s : State) : Host.Outcome State Fault Refusal := .next (s.setOff c)

/-- `CH.DUTY`: `SetDuty(c, p)` for every `p` in [0, 100] (20_memory.md R33, R34); a larger `p` is
outside the contract (log 6). -/
def execChDuty (c : Channel) (p : BitVec 7) (s : State) : Host.Outcome State Fault Refusal :=
  match percentOf p with
  | some q => .next (s.setDuty c q)
  | none => .refused .dutyOutOfContract

end Sys2Proof.Machine
end

