-- ==== Sys2Proof/Machine/Flags.lean ====
section
/-! DEFINITION. The predicates the rules use. The block has no flag register (10_state.md R19). -/

namespace Sys2Proof.Machine

/-- `stopped(c)` (10_state.md R19). -/
def stopped (c : DriveCommand) : Bool := decide (c.duty = 0)

/-- `driving(c)` (10_state.md R19). -/
def driving (c : DriveCommand) : Bool := decide (0 < c.duty)

/-- `need_kick(last, cur)` (10_state.md R19, 42_sequencer.md R82). -/
def needKick (last cur : DriveCommand) : Bool :=
  driving cur && (stopped last || last.forward != cur.forward)

end Sys2Proof.Machine
end

