-- ==== Sys2Proof/Machine/Mapper.lean ====
section
/-! DEFINITION. The Speed-to-Drive Mapper, over mathematical integers (41_mapper.md). -/

namespace Sys2Proof.Machine

/-- `scaled`: multiply first, divide second, rounding down (41_mapper.md R72). -/
def scaledDuty (magnitude : Nat) : Nat :=
  min Config.dutyMax (magnitude * 100 / Config.fullScale)

/-- The duty of a magnitude (41_mapper.md R70 to R72). -/
def dutyOf (magnitude : Nat) : Percent :=
  if magnitude = 0 then 0
  else ⟨max (scaledDuty magnitude) Config.minDuty, by unfold scaledDuty; simp only [Config.dutyMax, Config.minDuty]; omega⟩

/-- `map(speed)` (41_mapper.md R70). -/
def mapSpeed (speed : Int) : DriveCommand where
  duty := dutyOf speed.natAbs
  forward := decide (0 ≤ speed)

end Sys2Proof.Machine
end

