-- ==== Sys2Proof/Machine/Sequencer.lean ====
section
/-! DEFINITION. The Kickstart Sequencer: classification, the four operations, and the sequencer as one
big step (42_sequencer.md). -/

namespace Sys2Proof.Machine

/-- The four operations (42_sequencer.md R81). -/
inductive Operation where
  | nop
  | stop
  | kick
  | update
  deriving DecidableEq, Repr

/-- The classification of a pair (last, current), first matching row (42_sequencer.md R81). The
direction bits are not examined when a duty is 0. -/
def classify (last cur : DriveCommand) : Operation :=
  if stopped cur then
    if stopped last then .nop else .stop
  else if stopped last then .kick
  else if last.forward != cur.forward then .kick
  else .update

/-- The active channel of a driving command (42_sequencer.md R83). -/
def active (cur : DriveCommand) : Channel := chan cur.forward

/-- The inactive channel of a driving command (42_sequencer.md R83). -/
def inactive (cur : DriveCommand) : Channel := opp (active cur)

/-- `T.STOP`: A, then B (42_sequencer.md R86). -/
def stopWrites (s : State) : State := (s.setOff .A).setOff .B

/-- `T.UPDATE`: inactive off, then active at the target duty (42_sequencer.md R87). -/
def updateWrites (cur : DriveCommand) (s : State) : State :=
  (s.setOff (inactive cur)).setDuty (active cur) cur.duty

/-- `T.KICK`, step 1 and the write of step 2 (42_sequencer.md R85). -/
def kickWrites (cur : DriveCommand) (s : State) : State :=
  (s.setOff (inactive cur)).setDuty (active cur) kickPercent

/-- `T.KICK`, step 3 (42_sequencer.md R85). -/
def settleWrite (cur : DriveCommand) (s : State) : State := s.setDuty (active cur) cur.duty

/-- `Sequence(last, cur)` as one big step over channels and trace (42_sequencer.md R88). -/
def runSequence (last cur : DriveCommand) (s : State) : State :=
  if stopped cur then
    if stopped last then s else stopWrites s
  else if needKick last cur then
    settleWrite cur ((kickWrites cur s).emit (.delay Config.kickMs))
  else updateWrites cur s

end Sys2Proof.Machine
end

