-- ==== Sys2Proof/Machine/Reports.lean ====
section
/-! DEFINITION. The meanings of the four command classes of the input report (40_decoder.md R61 to R64,
43_control_loop.md R102, R103). -/

namespace Sys2Proof.Machine

/-- The start of a kickstart: steps 1 and 2, the wait, the latches; ControllerState is not yet
updated (43_control_loop.md R103). -/
def beginKick (speed : Speed) (cur : DriveCommand) (s : State) : State :=
  (kickWrites cur s).beginWait.latch speed cur

/-- A changed command: select the operation, perform it, commit unless it waits
(43_control_loop.md R103). -/
def applyChanged (speed : Speed) (s : State) : State :=
  let cur := mapSpeed speed.toInt
  match classify s.last cur with
  | .nop => s.commit speed cur
  | .stop => (stopWrites s).commit speed cur
  | .update => (updateWrites cur s).commit speed cur
  | .kick => beginKick speed cur s

/-- A decoded speed: nothing if it is the last accepted one (43_control_loop.md R102), else applied. -/
def acceptSpeed (speed : Speed) (s : State) : State :=
  if speed = s.lastSpeed then s else applyChanged speed s

/-- A report the block has just polled, in phase `POLL`; in phase `KICK` there is no poll step
(43_control_loop.md R100, R106; log 7). -/
def reportStep (speed : Speed) (s : State) : Host.Outcome State Fault Refusal :=
  match s.phase with
  | .poll => .next (acceptSpeed speed s)
  | .kick => .refused .pollInKick

/-- `SPD.STOP` (40_decoder.md R61). -/
def execSpdStop (s : State) : Host.Outcome State Fault Refusal := reportStep stopSpeed s

/-- `SPD.NEGMAX` (40_decoder.md R64). -/
def execSpdNegmax (s : State) : Host.Outcome State Fault Refusal := reportStep negmaxSpeed s

/-- `SPD.FWD` (40_decoder.md R62). -/
def execSpdFwd (v : BitVec 15) (s : State) : Host.Outcome State Fault Refusal :=
  reportStep (fwdSpeed v) s

/-- `SPD.REV` (40_decoder.md R63). -/
def execSpdRev (v : BitVec 15) (s : State) : Host.Outcome State Fault Refusal :=
  reportStep (revSpeed v) s

end Sys2Proof.Machine
end

