-- ==== Sys2Proof/Machine/Dispatch.lean ====
section
/-! DEFINITION. One arm per instruction. -/

namespace Sys2Proof.Machine

def exec (i : Instr) (s : State) : Host.Outcome State Fault Refusal :=
  match i with
  | .spdStop => Sys2Proof.Machine.execSpdStop s
  | .spdNegmax => Sys2Proof.Machine.execSpdNegmax s
  | .spdFwd v => Sys2Proof.Machine.execSpdFwd v s
  | .spdRev v => Sys2Proof.Machine.execSpdRev v s
  | .chOff c => Sys2Proof.Machine.execChOff c s
  | .chDuty c p => Sys2Proof.Machine.execChDuty c p s

end Sys2Proof.Machine
end

