-- ==== Sys2Proof/Machine/Loop.lean ====
section
/-! DEFINITION. The Control Loop: what each event does (43_control_loop.md), the loop iteration as one
big step, and how the next event is found. -/

namespace Sys2Proof.Machine

/-! ## The three events -/

/-- Steps 1 to 3 of an iteration, the block being in phase `POLL`: nothing without a report or with
a malformed one (43_control_loop.md R101), else the decoded instruction. -/
def handleAnswer (r : Option (List Byte)) (s : State) : Host.Outcome State Fault Refusal :=
  match r with
  | none => .next s
  | some buf =>
    match decode .report buf with
    | .rejected _ => .next s
    | .ok i => exec i s

/-- The poll event (43_control_loop.md R100): enabled in phase `POLL` only (R106). -/
def pollEvent (r : Option (List Byte)) (s : State) : Host.Outcome State Fault Refusal :=
  match s.phase with
  | .poll => handleAnswer r s
  | .kick => .refused .pollInKick

/-- The end of the wait: step 3, ControllerState from the latches, back to `POLL`
(43_control_loop.md R104). -/
def finishKick (s : State) : State :=
  { (settleWrite s.tgt s).commit s.tgtSpeed s.tgt with phase := .poll }

/-- The tick event: counts in phase `KICK` (43_control_loop.md R104), nothing in phase `POLL`
(R105). -/
def tickEvent (s : State) : State :=
  match s.phase with
  | .poll => s
  | .kick =>
    let s' := { s with kickRem := s.kickRem - 1 }
    if s'.kickRem = 0 then finishKick s' else s'

/-- The step relation: one event at a time (43_control_loop.md section 2). -/
def react (e : Event) (s : State) : Host.Outcome State Fault Refusal :=
  match e with
  | .poll r => pollEvent r s
  | .tick => .next (tickEvent s)
  | .reset => .next s.resetBlock

/-! ## The iteration as one big step -/

/-- `Iterate(r)` (43_control_loop.md R107). -/
def iterate (r : Option (List Byte)) (s : State) : State :=
  match r.bind decodeSpeed with
  | none => s
  | some speed =>
    if speed = s.lastSpeed then s
    else (runSequence s.last (mapSpeed speed.toInt) s).commit speed (mapSpeed speed.toInt)

/-! ## What comes next -/

/-- The block's own move: it polls in phase `POLL`; in phase `KICK` it is inside the wait and its
move passes with nothing done (43_control_loop.md R100, R106; log 7). -/
def blockMove (s : State) : Host.Outcome State Fault Refusal :=
  match s.phase with
  | .poll => react (.poll s.takeAnswer.1) s.takeAnswer.2
  | .kick => .next s

/-- The move of whoever's turn it is (log 1). -/
def turnMove (t : Turn) (s : State) : Host.Outcome State Fault Refusal :=
  match t with
  | .block => blockMove s
  | .tick => react .tick s
  | .reset => react .reset s

/-- A word laid at the channel write port is performed (20_memory.md R33, log 4). -/
def performPortWord (bytes : List Byte) (s : State) : Host.Outcome State Fault Refusal :=
  match decode .channel bytes with
  | .ok i => exec i s
  | .rejected _ => .refused .reservedChannelWord

/-- One step of the machine: a word at the channel write port first (there is none in any state a
run reaches), else the next move. -/
def advance (s : State) : Host.Outcome State Fault Refusal :=
  match s.chPort with
  | some bytes => performPortWord bytes { s with chPort := none }
  | none => turnMove s.takeTurn.1 s.takeTurn.2

/-! ## Placing an instruction from outside -/

/-- The bytes `bytes` as the answer of a poll that is the very next step (log 3). -/
def placeReport (bytes : List Byte) (s : State) : State :=
  { s with
    chPort := none
    phase := .poll
    turns := .block :: s.turns
    answers := some bytes :: s.answers }

/-- The bytes `bytes` at the channel write port (log 4). -/
def placeChannelWord (bytes : List Byte) (s : State) : State := { s with chPort := some bytes }

/-- A table word laid where the next step takes its instruction (log 3). A length no row has
changes nothing. -/
def placeTableWord (nbits w : Nat) (s : State) : State :=
  match tableBytes nbits w with
  | some (.report, bytes) => placeReport bytes s
  | some (.channel, bytes) => placeChannelWord bytes s
  | none => s

end Sys2Proof.Machine
end

