-- ==== Sys2Proof/Machine/Step.lean ====
section
/-! DEFINITION. The step function and the placing of an instruction before it. -/

namespace Sys2Proof.Machine

/-- One step: the next event happens (43_control_loop.md section 2). -/
def step (s : State) : Host.Outcome State Fault Refusal := advance s

/-- `s` with the table word where `step` takes its next instruction: a report as the answer of the
poll that comes next, a channel word at the channel write port (log 3, log 4). -/
def State.withFetchWord (s : State) (nbits w : Nat) : State := placeTableWord nbits w s

end Sys2Proof.Machine
end

