-- ==== Sys2Proof/Machine/Pins.lean ====
section
/-! DEFINITION. The block at its pins: the encodings and ports of 10_state.md R24, one clock of the
block as a function of the pins, and the derived view of 44_direction_output.md R119. No abstract
rule depends on this file (92_eei_decisions.md D9); the clock runs the same events as `step`. -/

namespace Sys2Proof.Machine

/-! ## Register encodings (10_state.md R24) -/

/-- 7 bits unsigned. -/
def dutyBits (p : Percent) : BitVec 7 := BitVec.ofNat 7 p.val

/-- 1 = forward. -/
def fwdBit (forward : Bool) : BitVec 1 := BitVec.ofBool forward

/-- 0 = `POLL`, 1 = `KICK`. -/
def phaseBit : Phase → BitVec 1
  | .poll => 0
  | .kick => 1

/-- `OFF` = 0x00, `DUTY(p)` = 0x80 + p. -/
def chByte : ChVal → Byte
  | .off => 0x00
  | .duty p => dutyByte (dutyBits p)

/-! ## Ports (10_state.md R24) -/

/-- The input pins sampled at one clock. `chWrOk` is the collaborator's success answer. `rst` = `true`
is reset asserted and `tick1ms` = `true` is the pulse: the spec gives neither a level (DESIGN CHOICE,
log 23). -/
structure PinsIn where
  rst : Bool
  tick1ms : Bool
  rptValid : Bool
  rptLen : Nat
  rptB0 : Byte
  rptB1 : Byte
  chWrOk : Bool
  deriving DecidableEq, Repr

/-- The output pins of one clock. `true` is the pulse of `ch_a_wr`, `ch_b_wr` and `rpt_poll`, whose
level the spec does not give (DESIGN CHOICE, log 23). -/
structure PinsOut where
  chA : Byte
  chB : Byte
  chAWr : Bool
  chBWr : Bool
  rptPoll : Bool
  deriving DecidableEq, Repr

/-- The answer of a poll as the pins give it: bytes beyond the second are not presented, and no rule
reads them (10_state.md R24; 93_implementation_defined.md U8; log 13). -/
def pinsAnswer (p : PinsIn) : Option (List Byte) :=
  if p.rptValid then
    some (([p.rptB0, p.rptB1] ++ List.replicate (p.rptLen - 2) 0).take p.rptLen)
  else none

/-- One clock: reset overrides; else the tick, then the poll if the block was in phase `POLL`
(60_exceptions.md R132, log 13). That `rst` high is reset, taken at the clock, is the model's choice
(DESIGN CHOICE, log 23). -/
def clock (p : PinsIn) (s : State) : Host.Outcome State Fault Refusal :=
  if p.rst then react .reset s
  else
    let s' := if p.tick1ms then tickEvent s else s
    match s.phase with
    | .poll => react (.poll (pinsAnswer p)) s'
    | .kick => .next s'

/-- Does the event write channel `c`? -/
def writesChannel (c : Channel) : OutEvent → Bool
  | .off d => d == c
  | .duty d _ => d == c
  | .delay _ => false

/-- The output pins of a clock that took `s` to `t`. All writes of one operation appear in the one
clock of its step, so both channels may change and `ch_a_wr` and `ch_b_wr` pulse together, and the pair
of values between the writes (20_memory.md R36) shows in the trace and not on the pins. The spec gives
no schedule of the writes over clocks: this one is the model's choice (DESIGN CHOICE, log 22). -/
def pinsOut (p : PinsIn) (s t : State) : PinsOut where
  chA := chByte t.chA
  chB := chByte t.chB
  chAWr := (t.out.drop s.out.length).any (writesChannel .A)
  chBWr := (t.out.drop s.out.length).any (writesChannel .B)
  rptPoll := !p.rst && decide (s.phase = .poll)

/-! ## The derived view (44_direction_output.md R119): not an interface of the hardware -/

/-- `EN`: some channel is not `OFF`. -/
def enView (s : State) : Bool := s.chA != .off || s.chB != .off

/-- `DIR`: of no meaning when `EN` = 0. -/
def dirView (s : State) : Option Bool :=
  if s.chA != .off then some true else if s.chB != .off then some false else none

/-- `PCT`: the percent of the channel that holds `DUTY(p)`. -/
def pctView (s : State) : Option Percent :=
  match s.chA, s.chB with
  | .duty p, _ => some p
  | .off, .duty p => some p
  | .off, .off => none

end Sys2Proof.Machine
end

