-- ==== Sys2Proof/Machine/Stimulus.lean ====
section
/-! DEFINITION. The stimulus notation of 30_encoding.md R52: its items, their expansions, a list of
items as events, and a list of items laid before the machine. -/

namespace Sys2Proof.Machine

/-- One item: a poll with the oracle's answer, a tick, or a reset (30_encoding.md R52). -/
inductive Item where
  /-- `RPT b0 b1`. -/
  | rpt (b0 b1 : Byte)
  /-- `RAW b0 .. bk`, of any length. -/
  | raw (bytes : List Byte)
  /-- `NONE`. -/
  | noReport
  /-- `TICK`. -/
  | tick
  /-- `RESET`. -/
  | reset
  deriving DecidableEq, Repr

/-! ## Pseudo-items -/

/-- `SPD n` (30_encoding.md R52), `mod` giving a non-negative result. -/
def spdItem (n : Int) : Item :=
  .rpt (BitVec.ofNat 8 ((n % 65536) % 256).toNat) (BitVec.ofNat 8 ((n % 65536) / 256).toNat)

/-- `STOP` = `SPD 0`. -/
def stopItem : Item := spdItem 0

/-- `TICK n`: `n` consecutive ticks. -/
def tickItems (n : Nat) : List Item := List.replicate n .tick

/-! ## Items as events -/

/-- The event an item stands for. -/
def itemEvent : Item → Event
  | .rpt b0 b1 => .poll (some [b0, b1])
  | .raw bytes => .poll (some bytes)
  | .noReport => .poll none
  | .tick => .tick
  | .reset => .reset

/-- The events of a list of items, one after the other. A poll item in phase `KICK` is not a legal
stimulus and is refused (30_encoding.md R52). -/
def reactAll : List Item → State → Host.Outcome State Fault Refusal
  | [], s => .next s
  | i :: is, s =>
    match react (itemEvent i) s with
    | .next t => reactAll is t
    | .fault r => .fault r
    | .refused r => .refused r

/-! ## Items laid before the machine -/

/-- Whose move an item is. -/
def itemTurn : Item → Turn
  | .rpt _ _ => .block
  | .raw _ => .block
  | .noReport => .block
  | .tick => .tick
  | .reset => .reset

/-- The answer a poll item gives. -/
def itemAnswer : Item → List (Option (List Byte))
  | .rpt b0 b1 => [some [b0, b1]]
  | .raw bytes => [some bytes]
  | .noReport => [none]
  | .tick => []
  | .reset => []

/-- The items as the moves and answers that come next, before what is already scheduled (log 3). -/
def placeItems (items : List Item) (s : State) : State :=
  { s with
    turns := items.map itemTurn ++ s.turns
    answers := items.flatMap itemAnswer ++ s.answers }

end Sys2Proof.Machine
end

