-- ==== Sys2Proof/Safety.lean ====
section
/-! DEFINITION. What a safe run of this machine is, in the terms the statements use. -/

namespace Sys2Proof.Safety

open Sys2Proof.Machine

/-! ## The states of the block (10_state.md R16, R23) -/

/-- The channel values of a command once it is applied: both `OFF` when stopped, else its direction's
channel at its duty and the other `OFF` (R23 d). -/
def steadyDrive (c : DriveCommand) (d : Channel) : ChVal :=
  if driving c && decide (d = active c) then .duty c.duty else .off

/-- R23 (a), with R10: the last speed is in the domain and the last command is its map. -/
def LastIsMapped (s : State) : Prop :=
  s.lastSpeed ≠ 0x8000 ∧ s.last = mapSpeed s.lastSpeed.toInt

/-- R23 (d): nothing is left of a wait, and the channels carry the last command. -/
def Steady (s : State) : Prop :=
  s.kickRem = 0 ∧ ∀ d, s.ch d = steadyDrive s.last d

/-- R23 (e) and R16: the pulse is on, and the command in flight is a driving one and the map of its
speed. -/
def Kicking (s : State) : Prop :=
  1 ≤ s.kickRem.toNat ∧ s.kickRem.toNat ≤ Config.kickMs ∧
  s.ch (active s.tgt) = .duty kickPercent ∧ s.ch (inactive s.tgt) = .off ∧
  Config.minDuty ≤ s.tgtDuty.val ∧
  s.tgtSpeed ≠ 0x8000 ∧ s.tgt = mapSpeed s.tgtSpeed.toInt

/-- The invariant of 10_state.md R23, with no word at the channel write port (log 4). -/
structure Inv (s : State) : Prop where
  last : LastIsMapped s
  steady : s.phase = .poll → Steady s
  kicking : s.phase = .kick → Kicking s
  port : s.chPort = none

/-! ## The trace (10_state.md R18) -/

/-- The channel values after one more trace event. -/
def replayEvent (v : Channel → ChVal) : OutEvent → Channel → ChVal
  | .off c => fun d => if d = c then .off else v d
  | .duty c p => fun d => if d = c then .duty p else v d
  | .delay _ => v

/-- The channel values a trace leaves, from both `OFF`. Replaying a trace event by event gives the
channel values the outside sees between the writes of an operation (42_sequencer.md R91). -/
def replay (out : List OutEvent) : Channel → ChVal :=
  out.foldl replayEvent (fun _ => .off)

/-- At most one channel is not `OFF` (10_state.md R23 c). -/
def OneDriven (v : Channel → ChVal) : Prop := v .A = .off ∨ v .B = .off

/-- A reader of the trace that follows the kickstart discipline: `steady` between operations,
`raised c` after a channel that was off was raised to 100, `waiting c` during the wait on it, and
`broken` for ever once the discipline is broken (44_direction_output.md R117, R118; 20_memory.md
R40). -/
inductive Reader where
  | steady (a b : ChVal)
  | raised (c : Channel) (a b : ChVal)
  | waiting (c : Channel) (a b : ChVal)
  | broken
  deriving DecidableEq, Repr

/-- The channel values of one more write, `none` if both channels would then be driven. -/
def writeOne (a b : ChVal) (c : Channel) (v : ChVal) : Option (ChVal × ChVal) :=
  match c with
  | .A => if v = .off ∨ b = .off then some (v, b) else none
  | .B => if v = .off ∨ a = .off then some (a, v) else none

/-- One trace event. In `steady`, a channel may be switched off; a channel that is driving may take
another duty; a channel that is off may only be raised to 100, with both off before. Then the wait
must follow at once, of 150 ms, and after it a duty on the same channel. -/
def Reader.next : Reader → OutEvent → Reader
  | .steady a b, .off c =>
    match writeOne a b c .off with
    | some (a', b') => .steady a' b'
    | none => .broken
  | .steady a b, .duty c p =>
    match writeOne a b c (.duty p) with
    | some (a', b') =>
      if (match c with | .A => a | .B => b) = .off then
        if p = kickPercent then .raised c a' b' else .broken
      else .steady a' b'
    | none => .broken
  | .raised c a b, .delay ms => if ms = Config.kickMs then .waiting c a b else .broken
  | .waiting c a b, .duty d p =>
    if d = c then
      match writeOne a b c (.duty p) with
      | some (a', b') => .steady a' b'
      | none => .broken
    else .broken
  | _, _ => .broken

/-- A whole trace, read from both channels off. -/
def readTrace (out : List OutEvent) : Reader := out.foldl Reader.next (.steady .off .off)

/-- The trace of the run so far is disciplined, and where it stands is where the block stands. -/
def TraceInv (s : State) : Prop :=
  readTrace s.out =
    match s.phase with
    | .poll => .steady s.chA s.chB
    | .kick => .waiting (active s.tgt) s.chA s.chB

/-! ## ControllerState -/

/-- ControllerState (10_state.md R12). -/
def controller (s : State) : Speed × Percent × Bool := (s.lastSpeed, s.lastDuty, s.lastFwd)

/-- Two states the outside cannot tell apart by trace, channels or ControllerState
(43_control_loop.md R107). -/
def Agree (s t : State) : Prop :=
  s.out = t.out ∧ s.chA = t.chA ∧ s.chB = t.chB ∧ controller s = controller t

end Sys2Proof.Safety
end

