-- ==== Sys2Proof/Certificates/Slice0/Obligations.lean ====
section
/-! DEFINITION. The statements for the provers. Each docstring names the rule of the spec, or the
spec's own decision, that it states. -/

open Sys2Proof Sys2Proof.Machine Sys2Proof.Safety

/-! ## Encoding -/

/-- Words written out bit by bit from 30_encoding.md R48 and 10_state.md R24. -/
def Obligations.SpecWordsDecode : Prop :=
  decode .report [0b00000000, 0b00000000] = .ok .spdStop ∧
  decode .report [0b00000000, 0b10000000] = .ok .spdNegmax ∧
  decode .report [0b10000000, 0b00111110] = .ok (.spdFwd 16000) ∧
  decode .report [0b11111111, 0b01111111] = .ok (.spdFwd 32767) ∧
  decode .report [0b00110000, 0b11111000] = .ok (.spdRev 30768) ∧
  decode .report [0b00000001, 0b10000000] = .ok (.spdRev 1) ∧
  decode .channel [0b00000000, 0b00000001] = .ok (.chOff .B) ∧
  decode .channel [0b11100100, 0b00000000] = .ok (.chDuty .A 100) ∧
  decode .channel [0b10101000, 0b00000001] = .ok (.chDuty .B 40)

/-- Decoding an encoded well-formed instruction gives it back, with every operand at every value. -/
def Obligations.DecodeOfEncode : Prop :=
  ∀ i : Instr, i.wellFormed = true → decode i.port (encode i) = .ok i

/-- The other direction: bytes that decode at all are the encoding of the one well-formed
instruction they decode to, at the port they stood on. -/
def Obligations.EncodeOfDecode : Prop :=
  ∀ (port : Port) (bytes : List Byte) (i : Instr), decode port bytes = .ok i →
    i.wellFormed = true ∧ i.port = port ∧ encode i = bytes

/-- 30_encoding.md R48: every 2-byte report, as the word `w`, is of exactly one class, and the class
carries the speed of its row. -/
def Obligations.EveryWordHasOneClass : Prop :=
  ∀ (b0 b1 : Byte) (w : Nat), w = b0.toNat + 256 * b1.toNat →
    ∃ (i : Instr) (speed : Speed),
      decode .report [b0, b1] = .ok i ∧ speedOf i = some speed ∧
      (w = 0x0000 → i = .spdStop ∧ speed.toInt = 0) ∧
      (w = 0x8000 → i = .spdNegmax ∧ speed.toInt = -32767) ∧
      (0x0001 ≤ w → w ≤ 0x7FFF →
        ∃ v : BitVec 15, v.toNat = w ∧ i = .spdFwd v ∧ speed.toInt = (v.toNat : Int)) ∧
      (0x8001 ≤ w → w ≤ 0xFFFF →
        ∃ v : BitVec 15, v.toNat + 0x8000 = w ∧ i = .spdRev v ∧
          speed.toInt = (v.toNat : Int) - 32768)

/-- 40_decoder.md R60: `Decode` over integers. A length other than 2 gives nothing, whatever the
bytes, and leaves the state unchanged; length 2 is read first byte low, in two's complement, with
-32768 saturated. -/
def Obligations.DecodeIsLittleEndianSaturating : Prop :=
  (∀ buf : List Byte, buf.length ≠ 2 → decodeSpeed buf = none ∧
    ∀ s : State, s.phase = .poll → react (.poll (some buf)) s = .next s) ∧
  (∀ (b0 b1 : Byte) (w : Nat) (raw : Int),
    w = b0.toNat + 256 * b1.toNat →
    raw = (if w < 32768 then (w : Int) else (w : Int) - 65536) →
    ∃ speed : Speed, decodeSpeed [b0, b1] = some speed ∧
      speed.toInt = (if raw = -32768 then -32767 else raw)) ∧
  decodeSpeed [0x80, 0x3E] = some 16000 ∧ decodeSpeed [0x80] = none ∧
  decodeSpeed [0x80, 0x3E, 0x00] = none

/-- 40_decoder.md R66: the round trip on every speed of the domain, and the one word outside it. -/
def Obligations.SpeedRoundTrip : Prop :=
  (∀ n : Int, -32767 ≤ n → n ≤ 32767 →
    ∃ speed : Speed, speed.toInt = n ∧
      decodeSpeed [BitVec.ofNat 8 ((n % 65536) % 256).toNat,
        BitVec.ofNat 8 ((n % 65536) / 256).toNat] = some speed) ∧
  (∃ speed : Speed, decodeSpeed [0x00, 0x80] = some speed ∧ speed.toInt = -32767) ∧
  BitVec.ofNat 8 ((-32767 : Int) % 65536 % 256).toNat = 0x01 ∧
  BitVec.ofNat 8 ((-32767 : Int) % 65536 / 256).toNat = 0x80

/-! ## The mapper -/

/-- 41_mapper.md R71: speed 0 maps to (0, forward), it is the only speed of duty 0, and every other
speed gets at least 40. -/
def Obligations.ZeroIsTheOnlyStop : Prop :=
  mapSpeed 0 = ⟨0, true⟩ ∧
  ∀ speed : Int, ((mapSpeed speed).duty.val = 0 ↔ speed = 0) ∧
    (speed ≠ 0 → 40 ≤ (mapSpeed speed).duty.val)

/-- 41_mapper.md R72: the duty of every nonzero speed of the domain, its bounds, and the source's
two examples. -/
def Obligations.NonzeroDutyFormula : Prop :=
  (∀ speed : Int, 1 ≤ speed.natAbs → speed.natAbs ≤ 32767 →
    (mapSpeed speed).duty.val = max (min 100 (speed.natAbs * 100 / 32767)) 40 ∧
    40 ≤ (mapSpeed speed).duty.val ∧ (mapSpeed speed).duty.val ≤ 100) ∧
  (mapSpeed 16000).duty = 48 ∧ (mapSpeed 2000).duty = 40

/-- 41_mapper.md R73: the direction is the sign, 0 counting as forward, and the duty depends on the
magnitude only. -/
def Obligations.DirectionIsTheSign : Prop :=
  (∀ speed : Int, (mapSpeed speed).forward = true ↔ 0 ≤ speed) ∧
  (∀ speed : Int, (mapSpeed (-speed)).duty = (mapSpeed speed).duty) ∧
  mapSpeed (-2000) = ⟨40, false⟩ ∧ mapSpeed 2000 = ⟨40, true⟩

/-- 41_mapper.md R74: the duty is monotone in the magnitude, and the mapper is not injective. -/
def Obligations.DutyIsMonotone : Prop :=
  (∀ a b : Int, 0 < a → a ≤ b → b ≤ 32767 → (mapSpeed a).duty ≤ (mapSpeed b).duty) ∧
  (∃ a b : Int, 0 < a ∧ a < b ∧ b ≤ 32767 ∧ mapSpeed a = mapSpeed b)

/-- 41_mapper.md, the breakpoint table of section 2 (derived there from R72): where each duty
begins. -/
def Obligations.DutyBreakpoints : Prop :=
  (∀ k m : Nat, 1 ≤ k → k ≤ 100 →
    (k ≤ m * 100 / 32767 ↔ (k * 32767 + 99) / 100 ≤ m)) ∧
  (∀ m : Nat, 1 ≤ m → m ≤ 13434 → (mapSpeed m).duty = 40) ∧
  (∀ m k : Nat, 41 ≤ k → k ≤ 99 →
    ((mapSpeed m).duty.val = k ↔ (k * 32767 + 99) / 100 ≤ m ∧ m < ((k + 1) * 32767 + 99) / 100)) ∧
  (∀ m : Nat, m ≤ 32767 → ((mapSpeed m).duty = 100 ↔ m = 32767))

/-- 41_mapper.md section 3 (the spec's derivation and its decision D3): the `min` never acts on a
16-bit speed, the product fits 22 bits, and the value outside the domain maps as -32767. -/
def Obligations.MapperArithmeticIsSafe : Prop :=
  (∀ speed : Speed, speed.toInt.natAbs * 100 / 32767 ≤ 100 ∧ speed.toInt.natAbs * 100 < 2 ^ 22) ∧
  (∀ m : Nat, m ≤ 32767 → (m * 100 / 32767 = 100 ↔ m = 32767)) ∧
  mapSpeed (-32768) = mapSpeed (-32767) ∧ mapSpeed (-32767) = ⟨100, false⟩

/-! ## The sequencer -/

/-- 42_sequencer.md section 1, the six rows of the classification (row 6 is the spec's decision D4):
they decide the operation of every pair, whatever the direction bit of a stopped command. -/
def Obligations.ClassificationRows : Prop :=
  ∀ last cur : DriveCommand,
    (last.duty = 0 → cur.duty = 0 → classify last cur = .nop) ∧
    (0 < last.duty → cur.duty = 0 → classify last cur = .stop) ∧
    (last.duty = 0 → 0 < cur.duty → classify last cur = .kick) ∧
    (0 < last.duty → 0 < cur.duty → last.forward ≠ cur.forward → classify last cur = .kick) ∧
    (0 < last.duty → 0 < cur.duty → last.forward = cur.forward → classify last cur = .update)

/-- 42_sequencer.md R82: a kickstart is needed exactly on a start and on a reversal; it is what the
classification selects; never on a stop, never on a change of duty in the same direction; and the
sizes of the duties play no part. -/
def Obligations.KickExactlyOnStartOrReversal : Prop :=
  ∀ last cur : DriveCommand,
    (needKick last cur = true ↔
      0 < cur.duty ∧ (last.duty = 0 ∨ last.forward ≠ cur.forward)) ∧
    (classify last cur = .kick ↔ needKick last cur = true) ∧
    (cur.duty = 0 → needKick last cur = false) ∧
    (0 < last.duty → last.forward = cur.forward → needKick last cur = false) ∧
    (∀ last' cur' : DriveCommand, (last'.duty = 0 ↔ last.duty = 0) → (cur'.duty = 0 ↔ cur.duty = 0) →
      last'.forward = last.forward → cur'.forward = cur.forward →
      needKick last' cur' = needKick last cur)

/-- 42_sequencer.md R84: `T.NOP` writes nothing and takes no time: the sequencer on two stopped
commands changes nothing at all. Through the control loop it is never selected: a changed speed, in
a state of the invariant, selects another operation. -/
def Obligations.StoppedToStoppedIsNothing : Prop :=
  (∀ (last cur : DriveCommand) (s : State), last.duty = 0 → cur.duty = 0 →
    classify last cur = .nop ∧ runSequence last cur s = s) ∧
  (∀ (s : State) (speed : Speed), Inv s → speed ≠ s.lastSpeed →
    classify s.last (mapSpeed speed.toInt) ≠ .nop)

/-- 42_sequencer.md section 2 (the write orders are the spec's decisions D5, D6): what each operation
appends to the trace, and the channel values it leaves. -/
def Obligations.OperationTraces : Prop :=
  ∀ (last cur : DriveCommand) (s : State),
    (classify last cur = .stop → (runSequence last cur s).out = s.out ++ [.off .A, .off .B] ∧
      ∀ d, (runSequence last cur s).ch d = .off) ∧
    (classify last cur = .kick → cur.forward = true →
      (runSequence last cur s).out =
        s.out ++ [.off .B, .duty .A 100, .delay 150, .duty .A cur.duty] ∧
      (runSequence last cur s).chA = .duty cur.duty ∧ (runSequence last cur s).chB = .off) ∧
    (classify last cur = .kick → cur.forward = false →
      (runSequence last cur s).out =
        s.out ++ [.off .A, .duty .B 100, .delay 150, .duty .B cur.duty] ∧
      (runSequence last cur s).chA = .off ∧ (runSequence last cur s).chB = .duty cur.duty) ∧
    (classify last cur = .update → cur.forward = true →
      (runSequence last cur s).out = s.out ++ [.off .B, .duty .A cur.duty] ∧
      (runSequence last cur s).chA = .duty cur.duty ∧ (runSequence last cur s).chB = .off) ∧
    (classify last cur = .update → cur.forward = false →
      (runSequence last cur s).out = s.out ++ [.off .A, .duty .B cur.duty] ∧
      (runSequence last cur s).chA = .off ∧ (runSequence last cur s).chB = .duty cur.duty)

/-! ## The instructions: results and completion -/

/-- `SPD.STOP` in phase `POLL` (40_decoder.md section 2; the write order A, B is the spec's decision
D6; the commit after `T.NOP` is D21): it completes in every state, unchanged, from rest, or stopping
both channels. -/
def Obligations.SpdStopResult : Prop :=
  ∀ s : State, s.phase = .poll →
    (s.lastSpeed = 0 → exec .spdStop s = .next s) ∧
    (s.lastSpeed ≠ 0 → s.lastDuty = 0 → exec .spdStop s =
      .next { s with lastSpeed := 0, lastDuty := 0, lastFwd := true }) ∧
    (s.lastSpeed ≠ 0 → s.lastDuty ≠ 0 → exec .spdStop s =
      .next { s with
        lastSpeed := 0
        lastDuty := 0
        lastFwd := true
        chA := .off
        chB := .off
        out := s.out ++ [.off .A, .off .B] })

/-- `SPD.FWD v` in phase `POLL` (40_decoder.md section 2; channel A, the write order and the phase
register are the spec's decisions D1, D5, D8): unchanged, updated in the same direction, or the
start of a kickstart with ControllerState as before. `p` is the duty of 41_mapper.md R72. -/
def Obligations.SpdFwdResult : Prop :=
  ∀ (v : BitVec 15) (p : Percent) (s : State), v ≠ 0 → s.phase = .poll →
    p.val = max (min 100 (v.toNat * 100 / 32767)) 40 →
    (s.lastSpeed.toInt = (v.toNat : Int) → exec (.spdFwd v) s = .next s) ∧
    (s.lastSpeed.toInt ≠ (v.toNat : Int) → s.lastDuty ≠ 0 → s.lastFwd = true →
      exec (.spdFwd v) s = .next { s with
        lastSpeed := BitVec.ofNat 16 v.toNat
        lastDuty := p
        lastFwd := true
        chA := .duty p
        chB := .off
        out := s.out ++ [.off .B, .duty .A p] }) ∧
    (s.lastSpeed.toInt ≠ (v.toNat : Int) → (s.lastDuty = 0 ∨ s.lastFwd = false) →
      exec (.spdFwd v) s = .next { s with
        chA := .duty 100
        chB := .off
        phase := .kick
        kickRem := 150
        tgtSpeed := BitVec.ofNat 16 v.toNat
        tgtDuty := p
        tgtFwd := true
        out := s.out ++ [.off .B, .duty .A 100, .delay 150] })

/-- `SPD.REV v` in phase `POLL` (40_decoder.md section 2; decisions D1, D5, D8): the same on channel
B, with speed `v - 32768` and magnitude `32768 - v`. -/
def Obligations.SpdRevResult : Prop :=
  ∀ (v : BitVec 15) (p : Percent) (s : State), v ≠ 0 → s.phase = .poll →
    p.val = max (min 100 ((32768 - v.toNat) * 100 / 32767)) 40 →
    (s.lastSpeed.toInt = (v.toNat : Int) - 32768 → exec (.spdRev v) s = .next s) ∧
    (s.lastSpeed.toInt ≠ (v.toNat : Int) - 32768 → s.lastDuty ≠ 0 → s.lastFwd = false →
      exec (.spdRev v) s = .next { s with
        lastSpeed := BitVec.ofNat 16 (v.toNat + 32768)
        lastDuty := p
        lastFwd := false
        chA := .off
        chB := .duty p
        out := s.out ++ [.off .A, .duty .B p] }) ∧
    (s.lastSpeed.toInt ≠ (v.toNat : Int) - 32768 → (s.lastDuty = 0 ∨ s.lastFwd = true) →
      exec (.spdRev v) s = .next { s with
        chA := .off
        chB := .duty 100
        phase := .kick
        kickRem := 150
        tgtSpeed := BitVec.ofNat 16 (v.toNat + 32768)
        tgtDuty := p
        tgtFwd := false
        out := s.out ++ [.off .A, .duty .B 100, .delay 150] })

/-- `SPD.NEGMAX` in phase `POLL` (saturation at decode is the spec's decision D3, comparing after it
D20): full reverse, with -32767 compared, latched and stored, never -32768. -/
def Obligations.SpdNegmaxResult : Prop :=
  ∀ s : State, s.phase = .poll →
    (s.lastSpeed.toInt = -32767 → exec .spdNegmax s = .next s) ∧
    (s.lastSpeed.toInt ≠ -32767 → s.lastDuty ≠ 0 → s.lastFwd = false →
      exec .spdNegmax s = .next { s with
        lastSpeed := 0x8001
        lastDuty := 100
        lastFwd := false
        chA := .off
        chB := .duty 100
        out := s.out ++ [.off .A, .duty .B 100] }) ∧
    (s.lastSpeed.toInt ≠ -32767 → (s.lastDuty = 0 ∨ s.lastFwd = true) →
      exec .spdNegmax s = .next { s with
        chA := .off
        chB := .duty 100
        phase := .kick
        kickRem := 150
        tgtSpeed := 0x8001
        tgtDuty := 100
        tgtFwd := false
        out := s.out ++ [.off .A, .duty .B 100, .delay 150] })

/-- 40_decoder.md section 2: from there on `SPD.NEGMAX` is indistinguishable from `SPD.REV` with
word 0x8001 (decision D3). -/
def Obligations.NegmaxActsAsFullReverse : Prop :=
  ∀ s : State, exec .spdNegmax s = exec (.spdRev 1) s

/-- 20_memory.md R33: a channel write sets its channel and appends its event, completes in every
state and phase, and changes nothing else: the other channel, every register, the environment. -/
def Obligations.ChannelWriteResult : Prop :=
  ∀ s : State,
    exec (.chOff .A) s = .next { s with chA := .off, out := s.out ++ [.off .A] } ∧
    exec (.chOff .B) s = .next { s with chB := .off, out := s.out ++ [.off .B] } ∧
    ∀ (p : BitVec 7) (q : Percent), p.toNat ≤ 100 → q.val = p.toNat →
      exec (.chDuty .A p) s = .next { s with chA := .duty q, out := s.out ++ [.duty .A q] } ∧
      exec (.chDuty .B p) s = .next { s with chB := .duty q, out := s.out ++ [.duty .B q] }

/-- The model's choice (log 6): a percent above 100, which no encoding the decoder accepts can carry,
is refused by name. -/
def Obligations.DutyAboveHundredIsRefused : Prop :=
  ∀ (c : Channel) (p : BitVec 7) (s : State), 100 < p.toNat →
    exec (.chDuty c p) s = .refused .dutyOutOfContract ∧
    ∀ bytes : List Byte, decode .channel bytes ≠ .ok (.chDuty c p)

/-- The frame of the four reports (42_sequencer.md sections 1 and 2; 43_control_loop.md section 2):
the environment's side stays; without a kickstart phase, counter and latches stay; with one
ControllerState stays; and the channels change only by the writes appended to the trace. -/
def Obligations.ReportFrame : Prop :=
  ∀ (i : Instr) (s t : State), i.port = .report → exec i s = .next t →
    t.turns = s.turns ∧ t.answers = s.answers ∧ t.freeIx = s.freeIx ∧ t.chPort = s.chPort ∧
    (t.phase = .poll → t.kickRem = s.kickRem ∧ t.tgtSpeed = s.tgtSpeed ∧ t.tgt = s.tgt) ∧
    (t.phase = .kick → controller t = controller s) ∧
    ∃ es : List OutEvent, t.out = s.out ++ es ∧ t.ch = es.foldl replayEvent s.ch

/-! ## The control loop -/

/-- 43_control_loop.md section 2, nothing to do: with no report, or one that does not decode, every
register, both channels, the trace and the phase stay. The second clause is in the model's own terms:
with nothing at the channel port (log 4), a step whose turn (log 1) and answer (log 2) are scheduled
consumes just those. -/
def Obligations.NothingToDoChangesNothing : Prop :=
  ∀ (s : State) (r : Option (List Byte)), s.phase = .poll →
    (r = none ∨ ∃ buf, r = some buf ∧ decodeSpeed buf = none) →
    react (.poll r) s = .next s ∧
    ∀ (ts : List Turn) (rs : List (Option (List Byte))),
      s.chPort = none → s.turns = .block :: ts → s.answers = r :: rs →
      step s = .next { s with turns := ts, answers := rs }

/-- 43_control_loop.md section 2, the unchanged command (comparing after saturation is the spec's
decision D20): the last accepted speed again changes nothing, whatever the channels hold. -/
def Obligations.UnchangedSpeedChangesNothing : Prop :=
  ∀ (s : State) (buf : List Byte), s.phase = .poll → decodeSpeed buf = some s.lastSpeed →
    react (.poll (some buf)) s = .next s

/-- 43_control_loop.md section 2, the changed command with an equal drive command (the spec's
decision D4): another speed of the same duty and direction still writes both channels again. -/
def Obligations.SameDutyStillRewrites : Prop :=
  ∀ (s : State) (buf : List Byte) (speed : Speed), s.phase = .poll →
    decodeSpeed buf = some speed → speed ≠ s.lastSpeed →
    mapSpeed speed.toInt = s.last → 0 < s.lastDuty →
    ∃ t : State, react (.poll (some buf)) s = .next t ∧ t.phase = .poll ∧
      t.lastSpeed = speed ∧ t.last = s.last ∧
      t.out = s.out ++ [.off (inactive s.last), .duty (active s.last) s.lastDuty] ∧
      t.ch (active s.last) = .duty s.lastDuty ∧ t.ch (inactive s.last) = .off

/-- 43_control_loop.md section 2, no poll in phase `KICK` (decisions D7, D8; that the model refuses a
report there, and lets the block's own move pass, is log 7; the moves and the port are log 1, log 4): the poll event and every report are
refused, a step there is a tick, a reset, or nothing, it reads no answer, and 150 ticks leave the
phase. -/
def Obligations.NoPollDuringKick : Prop :=
  ∀ s : State, s.phase = .kick →
    (∀ r, react (.poll r) s = .refused .pollInKick) ∧
    (∀ i : Instr, i.port = .report → exec i s = .refused .pollInKick) ∧
    (s.chPort = none →
      (s.takeTurn.1 = .tick ∧ step s = react .tick s.takeTurn.2) ∨
      (s.takeTurn.1 = .reset ∧ step s = react .reset s.takeTurn.2) ∨
      (s.takeTurn.1 = .block ∧ step s = .next s.takeTurn.2)) ∧
    (s.chPort = none → ∀ t, step s = .next t → t.answers = s.answers) ∧
    (1 ≤ s.kickRem.toNat → s.kickRem.toNat ≤ 150 → (tickEvent^[150] s).phase = .poll)

/-- 43_control_loop.md section 2, the tick (the time base and the phase register are the spec's
decisions D7, D8): one tick in `KICK` only counts, the tick that reaches 0 settles and commits; in
`POLL` (derived there) it changes nothing. The counting clause also covers the count 0, which no run
reaches in `KICK`: there the count wraps to 255, which is the model's choice (log 9). -/
def Obligations.TickResult : Prop :=
  ∀ s : State,
    (s.phase = .poll → react .tick s = .next s) ∧
    (s.phase = .kick → s.kickRem ≠ 1 → react .tick s = .next { s with kickRem := s.kickRem - 1 }) ∧
    (s.phase = .kick → s.kickRem = 1 → s.tgtFwd = true → react .tick s = .next { s with
      kickRem := 0
      phase := .poll
      chA := .duty s.tgtDuty
      out := s.out ++ [.duty .A s.tgtDuty]
      lastSpeed := s.tgtSpeed
      lastDuty := s.tgtDuty
      lastFwd := true }) ∧
    (s.phase = .kick → s.kickRem = 1 → s.tgtFwd = false → react .tick s = .next { s with
      kickRem := 0
      phase := .poll
      chB := .duty s.tgtDuty
      out := s.out ++ [.duty .B s.tgtDuty]
      lastSpeed := s.tgtSpeed
      lastDuty := s.tgtDuty
      lastFwd := false })

/-- 43_control_loop.md section 2, 95_test_vectors.md section 6 (decisions D7, D8): a kickstart lasts
exactly as many ticks as are left. Before the last one nothing but the count has changed; the last one
performs step 3 and commits. The ticks are scheduled moves, with nothing at the channel port (log 1,
log 4); counts above 150, which no run reaches, are the model's (log 9). -/
def Obligations.KickLastsExactlyItsTicks : Prop :=
  ∀ (s : State) (n : Nat) (ts : List Turn),
    s.chPort = none → s.phase = .kick → s.kickRem.toNat = n → 1 ≤ n →
    (∀ m : Nat, m < n → s.turns = List.replicate m .tick ++ ts →
      Host.Core.run core m s = .next { s with kickRem := BitVec.ofNat 8 (n - m), turns := ts }) ∧
    (s.turns = List.replicate n .tick ++ ts →
      ∃ t : State, Host.Core.run core n s = .next t ∧ t.phase = .poll ∧ t.kickRem = 0 ∧
        t.out = s.out ++ [.duty (active s.tgt) s.tgtDuty] ∧
        t.ch (active s.tgt) = .duty s.tgtDuty ∧ t.ch (inactive s.tgt) = s.ch (inactive s.tgt) ∧
        controller t = (s.tgtSpeed, s.tgtDuty, s.tgtFwd) ∧
        t.turns = ts ∧ t.answers = s.answers)

/-- 43_control_loop.md section 3 (derived there, over the decisions D7, D8): one poll step and 150
ticks are one iteration of the big-step loop, in trace, channels and ControllerState, from every state
in `POLL`. The moves and the answer are scheduled, with nothing at the channel port (log 1, log 2,
log 4). -/
def Obligations.PollAndTicksRefineIterate : Prop :=
  ∀ (s : State) (r : Option (List Byte)) (ts : List Turn) (rs : List (Option (List Byte))),
    s.chPort = none → s.phase = .poll →
    s.turns = .block :: (List.replicate 150 .tick ++ ts) → s.answers = r :: rs →
    ∃ t : State, Host.Core.run core 151 s = .next t ∧ t.phase = .poll ∧
      Agree t (iterate r s) ∧ t.turns = ts ∧ t.answers = rs

/-- 10_state.md section 1, 70_reset_and_hazards.md section 1: who writes ControllerState. Only a
reset, the poll of a changed speed that needs no kickstart, and the tick that ends a kickstart
(decisions D8, D26; moves, answers and port are log 1, log 2, log 4). -/
def Obligations.ControllerStateWriters : Prop :=
  ∀ s t : State, s.chPort = none → step s = .next t → controller t ≠ controller s →
    (s.takeTurn.1 = .reset ∧ controller t = (0, 0, true)) ∨
    (s.takeTurn.1 = .block ∧ s.phase = .poll ∧
      ∃ (buf : List Byte) (speed : Speed), s.takeTurn.2.takeAnswer.1 = some buf ∧
        decodeSpeed buf = some speed ∧ speed ≠ s.lastSpeed ∧
        needKick s.last (mapSpeed speed.toInt) = false ∧
        t.lastSpeed = speed ∧ t.last = mapSpeed speed.toInt) ∨
    (s.takeTurn.1 = .tick ∧ s.phase = .kick ∧ s.kickRem = 1 ∧
      controller t = (s.tgtSpeed, s.tgtDuty, s.tgtFwd))

/-- 42_sequencer.md R90: no cancellation. In `KICK` only a reset keeps the sequence from going on:
any other step leaves the pulse, the command in flight and ControllerState as they are, or is the tick
that ends it with step 3 and the update; and no answer is read (decisions D7, D8; moves, answers and
port are log 1, log 2, log 4; the block's passing move is log 7). -/
def Obligations.KickIsNeverCancelled : Prop :=
  ∀ s t : State, s.phase = .kick → s.chPort = none → s.takeTurn.1 ≠ .reset → step s = .next t →
    t.answers = s.answers ∧
    ((t.phase = .kick ∧ t.out = s.out ∧ t.ch = s.ch ∧ t.tgtSpeed = s.tgtSpeed ∧ t.tgt = s.tgt ∧
        controller t = controller s) ∨
      (s.takeTurn.1 = .tick ∧ s.kickRem = 1 ∧ t.phase = .poll ∧
        t.out = s.out ++ [.duty (active s.tgt) s.tgtDuty] ∧
        controller t = (s.tgtSpeed, s.tgtDuty, s.tgtFwd)))

/-- 70_reset_and_hazards.md section 1 (when it may come and the values are the spec's decisions D2,
D8, D13, D26): reset in any state, also inside a kickstart, gives every register its reset value,
writes no event, and leaves the environment's side (log 12). -/
def Obligations.ResetResult : Prop :=
  ∀ s : State, react .reset s = .next
    { lastSpeed := 0, lastDuty := 0, lastFwd := true, chA := .off, chB := .off, phase := .poll,
      kickRem := 0, tgtSpeed := 0, tgtDuty := 0, tgtFwd := true, out := [], turns := s.turns,
      answers := s.answers, freeIx := s.freeIx, chPort := s.chPort }

/-- 43_control_loop.md section 4 (derived there): from rest at speed 0, a poll does nothing or starts
a kickstart; no other write can come first. -/
def Obligations.FirstDriveIsAKick : Prop :=
  ∀ (s : State) (r : Option (List Byte)), s.phase = .poll → s.lastSpeed = 0 → s.lastDuty = 0 →
    react (.poll r) s = .next s ∨
    ∃ (buf : List Byte) (speed : Speed) (t : State), r = some buf ∧ decodeSpeed buf = some speed ∧
      speed ≠ 0 ∧ react (.poll r) s = .next t ∧ t.phase = .kick ∧ t.kickRem = 150 ∧
      t.out = s.out ++ [.off (inactive (mapSpeed speed.toInt)),
        .duty (active (mapSpeed speed.toInt)) 100, .delay 150]

/-! ## Whole-machine rules -/

/-- 60_exceptions.md section 1 (the spec's decision D15): no step faults or refuses, whatever the
environment does (log 1, log 2, log 7), and so no run of any length stops. The premise says that
nothing was laid at the channel write port (log 4); every step keeps it. -/
def Obligations.NoRunEverStops : Prop :=
  ∀ (k : Nat) (s : State), s.chPort = none →
    ∃ t : State, Host.Core.run core k s = .next t ∧ t.chPort = none

/-- 10_state.md R11: while the last duty is 0 no outcome depends on `last_fwd`: changing it changes
nothing in any poll's result but that bit itself, where it stays. -/
def Obligations.DirectionOfAStoppedCommandIsIrrelevant : Prop :=
  ∀ (s t : State) (r : Option (List Byte)) (b : Bool), s.lastDuty = 0 →
    react (.poll r) s = .next t →
    react (.poll r) { s with lastFwd := b } = .next t ∨
    (t.lastFwd = s.lastFwd ∧
      react (.poll r) { s with lastFwd := b } = .next { t with lastFwd := b })

/-- 20_memory.md section 1, 42_sequencer.md section 1: the block never reads a channel back. States
that agree on ControllerState and phase append the same events on the same answer, and agree again. -/
def Obligations.DecisionsIgnoreTheChannels : Prop :=
  ∀ (s s' t : State) (r : Option (List Byte)), controller s = controller s' → s.phase = s'.phase →
    react (.poll r) s = .next t →
    ∃ (t' : State) (es : List OutEvent), react (.poll r) s' = .next t' ∧
      t.out = s.out ++ es ∧ t'.out = s'.out ++ es ∧
      controller t = controller t' ∧ t.phase = t'.phase ∧
      (t.phase = .kick → t.tgtSpeed = t'.tgtSpeed ∧ t.tgt = t'.tgt ∧ t.kickRem = t'.kickRem)

/-- 40_decoder.md section 1: the loop sees a report only through `Decode`, so two answers that decode
alike are handled alike. -/
def Obligations.OnlyTheDecodedSpeedMatters : Prop :=
  ∀ (s : State) (b b' : List Byte), decodeSpeed b = decodeSpeed b' →
    react (.poll (some b)) s = react (.poll (some b')) s ∧
    iterate (some b) s = iterate (some b') s

/-! ## Invariants -/

/-- 10_state.md section 7 (values of the decisions D2, D8, D26): the reset state meets the
invariant. -/
def Obligations.ResetMeetsTheInvariant : Prop := Inv State.reset ∧ TraceInv State.reset

/-- 10_state.md section 8 (derived there): every step keeps the invariant, whatever the environment
does. The invariant includes that nothing is at the channel port (log 4). -/
def Obligations.StepKeepsTheInvariant : Prop :=
  ∀ s t : State, Inv s → step s = .next t → Inv t

/-- 10_state.md section 8, clauses (a) to (c), read off the invariant: the last duty is 0 or at least
40, so is every channel's, and never are both channels driven. -/
def Obligations.InvariantBoundsDutiesAndChannels : Prop :=
  ∀ s : State, Inv s →
    (s.lastDuty = 0 ∨ 40 ≤ s.lastDuty.val) ∧
    (∀ (c : Channel) (p : Percent), s.ch c = .duty p → 40 ≤ p.val) ∧
    OneDriven s.ch

/-- 44_direction_output.md (channels never driven together; every start and reversal kicks),
42_sequencer.md section 3, 20_memory.md section 7 (derived there): the trace stays disciplined. Between any two writes at most one channel is
driven, a channel is raised only to 100 and from both off, each raise is followed at once by the
150 ms wait and that by a duty on the same channel, and there is no other wait. The invariant is the
premise (decisions D2, D4 to D8; log 4). -/
def Obligations.StepKeepsTheTraceDisciplined : Prop :=
  ∀ s t : State, Inv s → TraceInv s → step s = .next t → TraceInv t

/-- What that discipline gives at every moment of the run (42_sequencer.md section 3): after any part
of the trace at most one channel is driven, and the whole trace replayed gives the channel
registers. -/
def Obligations.NeverBothDrivenBetweenWrites : Prop :=
  ∀ s : State, TraceInv s →
    (∀ n : Nat, OneDriven (replay (s.out.take n))) ∧ replay s.out = s.ch

/-! ## A step runs the decoded instruction -/

/-- A step is `exec` of the decoded instruction: of a report polled in phase `POLL`, after the turn
and the answer are taken; of a channel word, after the port is cleared; and of a table word that
`withFetchWord` placed, in every state (log 1 to log 5). -/
def Obligations.StepRunsTheDecodedInstruction : Prop :=
  (∀ (s : State) (bytes : List Byte) (i : Instr) (ts : List Turn)
      (rs : List (Option (List Byte))),
    s.chPort = none → s.phase = .poll → s.turns = .block :: ts → s.answers = some bytes :: rs →
    decode .report bytes = .ok i → step s = exec i { s with turns := ts, answers := rs }) ∧
  (∀ (s : State) (bytes : List Byte) (i : Instr),
    s.chPort = some bytes → decode .channel bytes = .ok i →
    step s = exec i { s with chPort := none }) ∧
  (∀ (s : State) (w : Nat) (i : Instr), decodeTableWord 16 w = some i →
    step (s.withFetchWord 16 w) = exec i { s with chPort := none, phase := .poll }) ∧
  (∀ (s : State) (w : Nat) (i : Instr), decodeTableWord 8 w = some i →
    step (s.withFetchWord 8 w) = exec i { s with chPort := none })

/-- 20_memory.md section 2 (decision D11; the schedule is log 1 and log 2): what a step asks of the
environment. A scheduled tick or reset is that event; a scheduled answer is what a poll gets; an
unscheduled move is a free one; an unscheduled answer is a free one of at most `MAX_POLL_LEN`
bytes. -/
def Obligations.StepAsksTheEnvironment : Prop :=
  ∀ s : State, s.chPort = none →
    (∀ ts, s.turns = .tick :: ts → step s = react .tick { s with turns := ts }) ∧
    (∀ ts, s.turns = .reset :: ts → step s = react .reset { s with turns := ts }) ∧
    (s.turns = [] → step s = turnMove (Config.freeTurn s.freeIx) { s with freeIx := s.freeIx + 1 }) ∧
    (∀ ts r rs, s.turns = .block :: ts → s.phase = .poll → s.answers = r :: rs →
      step s = react (.poll r) { s with turns := ts, answers := rs }) ∧
    (∀ ts, s.turns = .block :: ts → s.phase = .poll → s.answers = [] →
      ∃ r : Option (List Byte), (∀ bytes, r = some bytes → bytes.length ≤ Config.maxPollLen) ∧
        step s = react (.poll r) { s with turns := ts, freeIx := s.freeIx + 1 })

/-- 30_encoding.md section 6 (the notation is the spec's decision D17; the placing is log 1, log 2, log 3): the machine with a legal list
of stimulus items before it runs exactly their events, one a step, whatever is scheduled after. -/
def Obligations.ScheduledItemsRunAsTheirEvents : Prop :=
  ∀ (items : List Item) (s t : State), s.chPort = none → reactAll items s = .next t →
    Host.Core.run core items.length (placeItems items s) = .next t

/-! ## The pins -/

/-- 10_state.md section 9 (the encoding is the spec's decision D9): the byte of a channel value, which
decodes to the word that writes it, and the patterns never produced. -/
def Obligations.ChannelByteEncoding : Prop :=
  chByte .off = 0x00 ∧ chByte (.duty 100) = 0xE4 ∧ chByte (.duty 40) = 0xA8 ∧
  (∀ p : Percent, (chByte (.duty p)).toNat = 0x80 + p.val) ∧
  (∀ (c : Channel) (v : ChVal) (s : State),
    ∃ i : Instr, decode .channel [chByte v, channelNumber c] = .ok i ∧
      exec i s = .next (s.chWrite c v)) ∧
  (∀ v : ChVal, ¬ (0x01 ≤ (chByte v).toNat ∧ (chByte v).toNat ≤ 0x7F) ∧
    ¬ (0xE5 ≤ (chByte v).toNat))

/-- 10_state.md section 9, 60_exceptions.md sections 1 and 2 (the model's clock is log 13,
the levels of its pins log 23): one clock
is one event or none, so it never stops; the write status and the bytes that carry no report are not
read. -/
def Obligations.ClockIsOneEvent : Prop :=
  ∀ (p : PinsIn) (s : State),
    (p.rst = true → clock p s = react .reset s) ∧
    (p.rst = false → s.phase = .poll → clock p s = react (.poll (pinsAnswer p)) s) ∧
    (p.rst = false → s.phase = .kick → p.tick1ms = true → clock p s = react .tick s) ∧
    (p.rst = false → s.phase = .kick → p.tick1ms = false → clock p s = .next s) ∧
    (∀ p' : PinsIn, p'.rst = p.rst → p'.tick1ms = p.tick1ms → p'.rptValid = p.rptValid →
      p'.rptLen = p.rptLen → (p.rptValid = true → p.rptLen = 2 →
        p'.rptB0 = p.rptB0 ∧ p'.rptB1 = p.rptB1) →
      clock p' s = clock p s)

/-- 44_direction_output.md, the derived `EN`, `DIR`, `PCT` view (decision D10; not an interface): under the
invariant `EN`, `DIR` and `PCT` are well defined, and in phase `POLL` they read back the last
command. -/
def Obligations.DerivedViewIsWellDefined : Prop :=
  ∀ s : State, Inv s →
    (enView s = true ↔ (dirView s).isSome = true) ∧
    (enView s = true ↔ (pctView s).isSome = true) ∧
    (s.phase = .poll → (enView s = true ↔ s.lastDuty ≠ 0) ∧
      (s.lastDuty ≠ 0 → dirView s = some s.lastFwd ∧ pctView s = some s.lastDuty)) ∧
    (s.phase = .kick → dirView s = some s.tgtFwd ∧ pctView s = some 100)
end

