-- ==== Sys2Proof/Laws/Bits.lean ====
section
/-! SUPPORT. The decoder's bit operations as arithmetic: one lemma per operation. -/

namespace Sys2Proof

/-- Concatenation as arithmetic. -/
theorem toNat_concat {m n : Nat} (a : BitVec m) (b : BitVec n) :
    (a ++ b).toNat = a.toNat * 2 ^ n + b.toNat := by
  rw [BitVec.toNat_append, ← Nat.shiftLeft_add_eq_or_of_lt b.isLt, Nat.shiftLeft_eq]

theorem wordOf_toNat (b0 b1 : Byte) : (wordOf b0 b1).toNat = b0.toNat + 256 * b1.toNat := by
  have := toNat_concat b1 b0
  unfold wordOf
  omega

theorem fwdWord_toNat (v : BitVec 15) : (fwdWord v).toNat = v.toNat := by
  have := toNat_concat 0#1 v
  unfold fwdWord
  simp only [BitVec.toNat_ofNat] at this
  omega

theorem revWord_toNat (v : BitVec 15) : (revWord v).toNat = 32768 + v.toNat := by
  have := toNat_concat 1#1 v
  unfold revWord
  simp only [BitVec.toNat_ofNat] at this
  omega

theorem dutyByte_toNat (p : BitVec 7) : (dutyByte p).toNat = 128 + p.toNat := by
  have := toNat_concat 1#1 p
  unfold dutyByte
  simp only [BitVec.toNat_ofNat] at this
  omega

theorem lowBits_toNat (w : ReportWord) : (lowBits w).toNat = w.toNat % 32768 := by
  simp [lowBits]

theorem signBit_iff (w : ReportWord) : signBit w = true ↔ 32768 ≤ w.toNat := by
  simp [signBit, BitVec.msb_eq_decide]

/-- The two bytes of a word spell it again. -/
theorem wordOf_bytes (w : ReportWord) : wordOf (w.extractLsb' 0 8) (w.extractLsb' 8 8) = w := by
  apply BitVec.eq_of_toNat_eq
  rw [wordOf_toNat]
  simp only [BitVec.extractLsb'_toNat, Nat.shiftRight_eq_div_pow]
  have := w.isLt
  omega

/-- Every two bytes are the bytes of their word. -/
theorem bytesOf_wordOf (b0 b1 : Byte) : bytesOf (wordOf b0 b1) = [b0, b1] := by
  have h0 : (wordOf b0 b1).extractLsb' 0 8 = b0 := by
    apply BitVec.eq_of_toNat_eq
    simp only [BitVec.extractLsb'_toNat, wordOf_toNat, Nat.shiftRight_eq_div_pow]
    have := b0.isLt
    omega
  have h1 : (wordOf b0 b1).extractLsb' 8 8 = b1 := by
    apply BitVec.eq_of_toNat_eq
    simp only [BitVec.extractLsb'_toNat, wordOf_toNat, Nat.shiftRight_eq_div_pow]
    have := b0.isLt
    have := b1.isLt
    omega
  rw [bytesOf, h0, h1]

/-- A report of two bytes always decodes, to the class of its word. -/
theorem decode_two_bytes (b0 b1 : Byte) :
    decode .report [b0, b1] = .ok (decodeReportWord (wordOf b0 b1)) := rfl

/-- A report that is not of two bytes never decodes. -/
theorem decode_other_length {buf : List Byte} (h : buf.length ≠ 2) :
    decode .report buf = .rejected .badLength := if_neg h

/-! ## Speeds -/

namespace Machine

theorem saturate_ne (raw : Speed) : saturate raw ≠ 0x8000 := by
  unfold saturate
  split
  · decide
  · assumption

theorem saturate_of_ne {raw : Speed} (h : raw ≠ 0x8000) : saturate raw = raw := if_neg h

/-- The speed of a word of the class `SPD.FWD`. -/
theorem fwdSpeed_toInt (v : BitVec 15) : (fwdSpeed v).toInt = (v.toNat : Int) := by
  have e := fwdWord_toNat v
  have hv := v.isLt
  have hne : fwdWord v ≠ 0x8000 := by
    intro h
    have := congrArg BitVec.toNat h
    rw [e, show (0x8000 : ReportWord).toNat = 32768 from rfl] at this
    omega
  rw [fwdSpeed, saturate_of_ne hne, BitVec.toInt_eq_toNat_cond, e]
  split <;> omega

/-- The speed of a word of the class `SPD.REV`. -/
theorem revSpeed_toInt {v : BitVec 15} (h : v ≠ 0) : (revSpeed v).toInt = (v.toNat : Int) - 32768 := by
  have e := revWord_toNat v
  have hv := v.isLt
  have hv0 : v.toNat ≠ 0 := fun h0 => h (BitVec.eq_of_toNat_eq h0)
  have hne : revWord v ≠ 0x8000 := by
    intro h'
    have := congrArg BitVec.toNat h'
    rw [e, show (0x8000 : ReportWord).toNat = 32768 from rfl] at this
    omega
  rw [revSpeed, saturate_of_ne hne, BitVec.toInt_eq_toNat_cond, e]
  split <;> omega

/-- Every speed a report carries is in the domain: never 0x8000 (10_state.md R10). -/
theorem speedOf_ne {i : Instr} {speed : Speed} (h : speedOf i = some speed) : speed ≠ 0x8000 := by
  cases i <;> cases h
  · decide
  · exact saturate_ne _
  · exact saturate_ne _
  · exact saturate_ne _

theorem decodeSpeed_ne {buf : List Byte} {speed : Speed} (h : decodeSpeed buf = some speed) :
    speed ≠ 0x8000 := by
  unfold decodeSpeed at h
  split at h
  · exact speedOf_ne h
  · cases h

end Machine

end Sys2Proof
end

