-- ==== Sys2Proof/Laws/State.lean ====
section
/-! SUPPORT. One lemma per field and update: what each operation on State leaves of each field, and
what it writes. -/

namespace Sys2Proof.Machine


/-! ## setCh -/

@[simp] theorem setCh_lastSpeed (s : State) (c : Channel) (v : ChVal) :
    (s.setCh c v).lastSpeed = s.lastSpeed := by cases c <;> rfl
@[simp] theorem setCh_lastDuty (s : State) (c : Channel) (v : ChVal) :
    (s.setCh c v).lastDuty = s.lastDuty := by cases c <;> rfl
@[simp] theorem setCh_lastFwd (s : State) (c : Channel) (v : ChVal) :
    (s.setCh c v).lastFwd = s.lastFwd := by cases c <;> rfl
@[simp] theorem setCh_phase (s : State) (c : Channel) (v : ChVal) :
    (s.setCh c v).phase = s.phase := by cases c <;> rfl
@[simp] theorem setCh_kickRem (s : State) (c : Channel) (v : ChVal) :
    (s.setCh c v).kickRem = s.kickRem := by cases c <;> rfl
@[simp] theorem setCh_tgtSpeed (s : State) (c : Channel) (v : ChVal) :
    (s.setCh c v).tgtSpeed = s.tgtSpeed := by cases c <;> rfl
@[simp] theorem setCh_tgtDuty (s : State) (c : Channel) (v : ChVal) :
    (s.setCh c v).tgtDuty = s.tgtDuty := by cases c <;> rfl
@[simp] theorem setCh_tgtFwd (s : State) (c : Channel) (v : ChVal) :
    (s.setCh c v).tgtFwd = s.tgtFwd := by cases c <;> rfl
@[simp] theorem setCh_out (s : State) (c : Channel) (v : ChVal) :
    (s.setCh c v).out = s.out := by cases c <;> rfl
@[simp] theorem setCh_turns (s : State) (c : Channel) (v : ChVal) :
    (s.setCh c v).turns = s.turns := by cases c <;> rfl
@[simp] theorem setCh_answers (s : State) (c : Channel) (v : ChVal) :
    (s.setCh c v).answers = s.answers := by cases c <;> rfl
@[simp] theorem setCh_freeIx (s : State) (c : Channel) (v : ChVal) :
    (s.setCh c v).freeIx = s.freeIx := by cases c <;> rfl
@[simp] theorem setCh_chPort (s : State) (c : Channel) (v : ChVal) :
    (s.setCh c v).chPort = s.chPort := by cases c <;> rfl
@[simp] theorem setChA_chA (s : State) (v : ChVal) : (s.setCh .A v).chA = v := rfl
@[simp] theorem setChA_chB (s : State) (v : ChVal) : (s.setCh .A v).chB = s.chB := rfl
@[simp] theorem setChB_chA (s : State) (v : ChVal) : (s.setCh .B v).chA = s.chA := rfl
@[simp] theorem setChB_chB (s : State) (v : ChVal) : (s.setCh .B v).chB = v := rfl

/-! ## emit -/

@[simp] theorem emit_lastSpeed (s : State) (e : OutEvent) :
    (s.emit e).lastSpeed = s.lastSpeed := rfl
@[simp] theorem emit_lastDuty (s : State) (e : OutEvent) : (s.emit e).lastDuty = s.lastDuty := rfl
@[simp] theorem emit_lastFwd (s : State) (e : OutEvent) : (s.emit e).lastFwd = s.lastFwd := rfl
@[simp] theorem emit_chA (s : State) (e : OutEvent) : (s.emit e).chA = s.chA := rfl
@[simp] theorem emit_chB (s : State) (e : OutEvent) : (s.emit e).chB = s.chB := rfl
@[simp] theorem emit_phase (s : State) (e : OutEvent) : (s.emit e).phase = s.phase := rfl
@[simp] theorem emit_kickRem (s : State) (e : OutEvent) : (s.emit e).kickRem = s.kickRem := rfl
@[simp] theorem emit_tgtSpeed (s : State) (e : OutEvent) : (s.emit e).tgtSpeed = s.tgtSpeed := rfl
@[simp] theorem emit_tgtDuty (s : State) (e : OutEvent) : (s.emit e).tgtDuty = s.tgtDuty := rfl
@[simp] theorem emit_tgtFwd (s : State) (e : OutEvent) : (s.emit e).tgtFwd = s.tgtFwd := rfl
@[simp] theorem emit_out (s : State) (e : OutEvent) : (s.emit e).out = s.out ++ [e] := rfl
@[simp] theorem emit_turns (s : State) (e : OutEvent) : (s.emit e).turns = s.turns := rfl
@[simp] theorem emit_answers (s : State) (e : OutEvent) : (s.emit e).answers = s.answers := rfl
@[simp] theorem emit_freeIx (s : State) (e : OutEvent) : (s.emit e).freeIx = s.freeIx := rfl
@[simp] theorem emit_chPort (s : State) (e : OutEvent) : (s.emit e).chPort = s.chPort := rfl

/-! ## setOff -/

@[simp] theorem setOff_lastSpeed (s : State) (c : Channel) :
    (s.setOff c).lastSpeed = s.lastSpeed := by cases c <;> rfl
@[simp] theorem setOff_lastDuty (s : State) (c : Channel) :
    (s.setOff c).lastDuty = s.lastDuty := by cases c <;> rfl
@[simp] theorem setOff_lastFwd (s : State) (c : Channel) :
    (s.setOff c).lastFwd = s.lastFwd := by cases c <;> rfl
@[simp] theorem setOff_phase (s : State) (c : Channel) :
    (s.setOff c).phase = s.phase := by cases c <;> rfl
@[simp] theorem setOff_kickRem (s : State) (c : Channel) :
    (s.setOff c).kickRem = s.kickRem := by cases c <;> rfl
@[simp] theorem setOff_tgtSpeed (s : State) (c : Channel) :
    (s.setOff c).tgtSpeed = s.tgtSpeed := by cases c <;> rfl
@[simp] theorem setOff_tgtDuty (s : State) (c : Channel) :
    (s.setOff c).tgtDuty = s.tgtDuty := by cases c <;> rfl
@[simp] theorem setOff_tgtFwd (s : State) (c : Channel) :
    (s.setOff c).tgtFwd = s.tgtFwd := by cases c <;> rfl
@[simp] theorem setOff_out (s : State) (c : Channel) :
    (s.setOff c).out = s.out ++ [.off c] := by cases c <;> rfl
@[simp] theorem setOff_turns (s : State) (c : Channel) :
    (s.setOff c).turns = s.turns := by cases c <;> rfl
@[simp] theorem setOff_answers (s : State) (c : Channel) :
    (s.setOff c).answers = s.answers := by cases c <;> rfl
@[simp] theorem setOff_freeIx (s : State) (c : Channel) :
    (s.setOff c).freeIx = s.freeIx := by cases c <;> rfl
@[simp] theorem setOff_chPort (s : State) (c : Channel) :
    (s.setOff c).chPort = s.chPort := by cases c <;> rfl
@[simp] theorem setOffA_chA (s : State) : (s.setOff .A).chA = .off := rfl
@[simp] theorem setOffA_chB (s : State) : (s.setOff .A).chB = s.chB := rfl
@[simp] theorem setOffB_chA (s : State) : (s.setOff .B).chA = s.chA := rfl
@[simp] theorem setOffB_chB (s : State) : (s.setOff .B).chB = .off := rfl

/-! ## setDuty -/

@[simp] theorem setDuty_lastSpeed (s : State) (c : Channel) (p : Percent) :
    (s.setDuty c p).lastSpeed = s.lastSpeed := by cases c <;> rfl
@[simp] theorem setDuty_lastDuty (s : State) (c : Channel) (p : Percent) :
    (s.setDuty c p).lastDuty = s.lastDuty := by cases c <;> rfl
@[simp] theorem setDuty_lastFwd (s : State) (c : Channel) (p : Percent) :
    (s.setDuty c p).lastFwd = s.lastFwd := by cases c <;> rfl
@[simp] theorem setDuty_phase (s : State) (c : Channel) (p : Percent) :
    (s.setDuty c p).phase = s.phase := by cases c <;> rfl
@[simp] theorem setDuty_kickRem (s : State) (c : Channel) (p : Percent) :
    (s.setDuty c p).kickRem = s.kickRem := by cases c <;> rfl
@[simp] theorem setDuty_tgtSpeed (s : State) (c : Channel) (p : Percent) :
    (s.setDuty c p).tgtSpeed = s.tgtSpeed := by cases c <;> rfl
@[simp] theorem setDuty_tgtDuty (s : State) (c : Channel) (p : Percent) :
    (s.setDuty c p).tgtDuty = s.tgtDuty := by cases c <;> rfl
@[simp] theorem setDuty_tgtFwd (s : State) (c : Channel) (p : Percent) :
    (s.setDuty c p).tgtFwd = s.tgtFwd := by cases c <;> rfl
@[simp] theorem setDuty_out (s : State) (c : Channel) (p : Percent) :
    (s.setDuty c p).out = s.out ++ [.duty c p] := by cases c <;> rfl
@[simp] theorem setDuty_turns (s : State) (c : Channel) (p : Percent) :
    (s.setDuty c p).turns = s.turns := by cases c <;> rfl
@[simp] theorem setDuty_answers (s : State) (c : Channel) (p : Percent) :
    (s.setDuty c p).answers = s.answers := by cases c <;> rfl
@[simp] theorem setDuty_freeIx (s : State) (c : Channel) (p : Percent) :
    (s.setDuty c p).freeIx = s.freeIx := by cases c <;> rfl
@[simp] theorem setDuty_chPort (s : State) (c : Channel) (p : Percent) :
    (s.setDuty c p).chPort = s.chPort := by cases c <;> rfl
@[simp] theorem setDutyA_chA (s : State) (p : Percent) : (s.setDuty .A p).chA = .duty p := rfl
@[simp] theorem setDutyA_chB (s : State) (p : Percent) : (s.setDuty .A p).chB = s.chB := rfl
@[simp] theorem setDutyB_chA (s : State) (p : Percent) : (s.setDuty .B p).chA = s.chA := rfl
@[simp] theorem setDutyB_chB (s : State) (p : Percent) : (s.setDuty .B p).chB = .duty p := rfl

/-! ## commit -/

@[simp] theorem commit_lastSpeed (s : State) (speed : Speed) (c : DriveCommand) :
    (s.commit speed c).lastSpeed = speed := rfl
@[simp] theorem commit_lastDuty (s : State) (speed : Speed) (c : DriveCommand) :
    (s.commit speed c).lastDuty = c.duty := rfl
@[simp] theorem commit_lastFwd (s : State) (speed : Speed) (c : DriveCommand) :
    (s.commit speed c).lastFwd = c.forward := rfl
@[simp] theorem commit_chA (s : State) (speed : Speed) (c : DriveCommand) :
    (s.commit speed c).chA = s.chA := rfl
@[simp] theorem commit_chB (s : State) (speed : Speed) (c : DriveCommand) :
    (s.commit speed c).chB = s.chB := rfl
@[simp] theorem commit_phase (s : State) (speed : Speed) (c : DriveCommand) :
    (s.commit speed c).phase = s.phase := rfl
@[simp] theorem commit_kickRem (s : State) (speed : Speed) (c : DriveCommand) :
    (s.commit speed c).kickRem = s.kickRem := rfl
@[simp] theorem commit_tgtSpeed (s : State) (speed : Speed) (c : DriveCommand) :
    (s.commit speed c).tgtSpeed = s.tgtSpeed := rfl
@[simp] theorem commit_tgtDuty (s : State) (speed : Speed) (c : DriveCommand) :
    (s.commit speed c).tgtDuty = s.tgtDuty := rfl
@[simp] theorem commit_tgtFwd (s : State) (speed : Speed) (c : DriveCommand) :
    (s.commit speed c).tgtFwd = s.tgtFwd := rfl
@[simp] theorem commit_out (s : State) (speed : Speed) (c : DriveCommand) :
    (s.commit speed c).out = s.out := rfl
@[simp] theorem commit_turns (s : State) (speed : Speed) (c : DriveCommand) :
    (s.commit speed c).turns = s.turns := rfl
@[simp] theorem commit_answers (s : State) (speed : Speed) (c : DriveCommand) :
    (s.commit speed c).answers = s.answers := rfl
@[simp] theorem commit_freeIx (s : State) (speed : Speed) (c : DriveCommand) :
    (s.commit speed c).freeIx = s.freeIx := rfl
@[simp] theorem commit_chPort (s : State) (speed : Speed) (c : DriveCommand) :
    (s.commit speed c).chPort = s.chPort := rfl

/-! ## latch -/

@[simp] theorem latch_lastSpeed (s : State) (speed : Speed) (c : DriveCommand) :
    (s.latch speed c).lastSpeed = s.lastSpeed := rfl
@[simp] theorem latch_lastDuty (s : State) (speed : Speed) (c : DriveCommand) :
    (s.latch speed c).lastDuty = s.lastDuty := rfl
@[simp] theorem latch_lastFwd (s : State) (speed : Speed) (c : DriveCommand) :
    (s.latch speed c).lastFwd = s.lastFwd := rfl
@[simp] theorem latch_chA (s : State) (speed : Speed) (c : DriveCommand) :
    (s.latch speed c).chA = s.chA := rfl
@[simp] theorem latch_chB (s : State) (speed : Speed) (c : DriveCommand) :
    (s.latch speed c).chB = s.chB := rfl
@[simp] theorem latch_phase (s : State) (speed : Speed) (c : DriveCommand) :
    (s.latch speed c).phase = s.phase := rfl
@[simp] theorem latch_kickRem (s : State) (speed : Speed) (c : DriveCommand) :
    (s.latch speed c).kickRem = s.kickRem := rfl
@[simp] theorem latch_tgtSpeed (s : State) (speed : Speed) (c : DriveCommand) :
    (s.latch speed c).tgtSpeed = speed := rfl
@[simp] theorem latch_tgtDuty (s : State) (speed : Speed) (c : DriveCommand) :
    (s.latch speed c).tgtDuty = c.duty := rfl
@[simp] theorem latch_tgtFwd (s : State) (speed : Speed) (c : DriveCommand) :
    (s.latch speed c).tgtFwd = c.forward := rfl
@[simp] theorem latch_out (s : State) (speed : Speed) (c : DriveCommand) :
    (s.latch speed c).out = s.out := rfl
@[simp] theorem latch_turns (s : State) (speed : Speed) (c : DriveCommand) :
    (s.latch speed c).turns = s.turns := rfl
@[simp] theorem latch_answers (s : State) (speed : Speed) (c : DriveCommand) :
    (s.latch speed c).answers = s.answers := rfl
@[simp] theorem latch_freeIx (s : State) (speed : Speed) (c : DriveCommand) :
    (s.latch speed c).freeIx = s.freeIx := rfl
@[simp] theorem latch_chPort (s : State) (speed : Speed) (c : DriveCommand) :
    (s.latch speed c).chPort = s.chPort := rfl

/-! ## beginWait -/

@[simp] theorem beginWait_lastSpeed (s : State) : s.beginWait.lastSpeed = s.lastSpeed := rfl
@[simp] theorem beginWait_lastDuty (s : State) : s.beginWait.lastDuty = s.lastDuty := rfl
@[simp] theorem beginWait_lastFwd (s : State) : s.beginWait.lastFwd = s.lastFwd := rfl
@[simp] theorem beginWait_chA (s : State) : s.beginWait.chA = s.chA := rfl
@[simp] theorem beginWait_chB (s : State) : s.beginWait.chB = s.chB := rfl
@[simp] theorem beginWait_phase (s : State) : s.beginWait.phase = .kick := rfl
@[simp] theorem beginWait_kickRem (s : State) : s.beginWait.kickRem = 150 := rfl
@[simp] theorem beginWait_tgtSpeed (s : State) : s.beginWait.tgtSpeed = s.tgtSpeed := rfl
@[simp] theorem beginWait_tgtDuty (s : State) : s.beginWait.tgtDuty = s.tgtDuty := rfl
@[simp] theorem beginWait_tgtFwd (s : State) : s.beginWait.tgtFwd = s.tgtFwd := rfl
@[simp] theorem beginWait_out (s : State) : s.beginWait.out = s.out ++ [.delay 150] := rfl
@[simp] theorem beginWait_turns (s : State) : s.beginWait.turns = s.turns := rfl
@[simp] theorem beginWait_answers (s : State) : s.beginWait.answers = s.answers := rfl
@[simp] theorem beginWait_freeIx (s : State) : s.beginWait.freeIx = s.freeIx := rfl
@[simp] theorem beginWait_chPort (s : State) : s.beginWait.chPort = s.chPort := rfl

/-! ## resetBlock -/

@[simp] theorem resetBlock_lastSpeed (s : State) :
    s.resetBlock.lastSpeed = State.reset.lastSpeed := rfl
@[simp] theorem resetBlock_lastDuty (s : State) :
    s.resetBlock.lastDuty = State.reset.lastDuty := rfl
@[simp] theorem resetBlock_lastFwd (s : State) : s.resetBlock.lastFwd = State.reset.lastFwd := rfl
@[simp] theorem resetBlock_chA (s : State) : s.resetBlock.chA = State.reset.chA := rfl
@[simp] theorem resetBlock_chB (s : State) : s.resetBlock.chB = State.reset.chB := rfl
@[simp] theorem resetBlock_phase (s : State) : s.resetBlock.phase = State.reset.phase := rfl
@[simp] theorem resetBlock_kickRem (s : State) : s.resetBlock.kickRem = State.reset.kickRem := rfl
@[simp] theorem resetBlock_tgtSpeed (s : State) :
    s.resetBlock.tgtSpeed = State.reset.tgtSpeed := rfl
@[simp] theorem resetBlock_tgtDuty (s : State) : s.resetBlock.tgtDuty = State.reset.tgtDuty := rfl
@[simp] theorem resetBlock_tgtFwd (s : State) : s.resetBlock.tgtFwd = State.reset.tgtFwd := rfl
@[simp] theorem resetBlock_out (s : State) : s.resetBlock.out = State.reset.out := rfl
@[simp] theorem resetBlock_turns (s : State) : s.resetBlock.turns = s.turns := rfl
@[simp] theorem resetBlock_answers (s : State) : s.resetBlock.answers = s.answers := rfl
@[simp] theorem resetBlock_freeIx (s : State) : s.resetBlock.freeIx = s.freeIx := rfl
@[simp] theorem resetBlock_chPort (s : State) : s.resetBlock.chPort = s.chPort := rfl

/-! ## The environment's choices leave the block alone -/

@[simp] theorem takeTurn_lastSpeed (s : State) :
    s.takeTurn.2.lastSpeed = s.lastSpeed := by
  unfold State.takeTurn; split <;> rfl
@[simp] theorem takeTurn_lastDuty (s : State) :
    s.takeTurn.2.lastDuty = s.lastDuty := by
  unfold State.takeTurn; split <;> rfl
@[simp] theorem takeTurn_lastFwd (s : State) :
    s.takeTurn.2.lastFwd = s.lastFwd := by
  unfold State.takeTurn; split <;> rfl
@[simp] theorem takeTurn_chA (s : State) :
    s.takeTurn.2.chA = s.chA := by
  unfold State.takeTurn; split <;> rfl
@[simp] theorem takeTurn_chB (s : State) :
    s.takeTurn.2.chB = s.chB := by
  unfold State.takeTurn; split <;> rfl
@[simp] theorem takeTurn_phase (s : State) :
    s.takeTurn.2.phase = s.phase := by
  unfold State.takeTurn; split <;> rfl
@[simp] theorem takeTurn_kickRem (s : State) :
    s.takeTurn.2.kickRem = s.kickRem := by
  unfold State.takeTurn; split <;> rfl
@[simp] theorem takeTurn_tgtSpeed (s : State) :
    s.takeTurn.2.tgtSpeed = s.tgtSpeed := by
  unfold State.takeTurn; split <;> rfl
@[simp] theorem takeTurn_tgtDuty (s : State) :
    s.takeTurn.2.tgtDuty = s.tgtDuty := by
  unfold State.takeTurn; split <;> rfl
@[simp] theorem takeTurn_tgtFwd (s : State) :
    s.takeTurn.2.tgtFwd = s.tgtFwd := by
  unfold State.takeTurn; split <;> rfl
@[simp] theorem takeTurn_out (s : State) :
    s.takeTurn.2.out = s.out := by
  unfold State.takeTurn; split <;> rfl
@[simp] theorem takeTurn_answers (s : State) :
    s.takeTurn.2.answers = s.answers := by
  unfold State.takeTurn; split <;> rfl
@[simp] theorem takeTurn_chPort (s : State) :
    s.takeTurn.2.chPort = s.chPort := by
  unfold State.takeTurn; split <;> rfl
@[simp] theorem takeAnswer_lastSpeed (s : State) :
    s.takeAnswer.2.lastSpeed = s.lastSpeed := by
  unfold State.takeAnswer; split <;> rfl
@[simp] theorem takeAnswer_lastDuty (s : State) :
    s.takeAnswer.2.lastDuty = s.lastDuty := by
  unfold State.takeAnswer; split <;> rfl
@[simp] theorem takeAnswer_lastFwd (s : State) :
    s.takeAnswer.2.lastFwd = s.lastFwd := by
  unfold State.takeAnswer; split <;> rfl
@[simp] theorem takeAnswer_chA (s : State) :
    s.takeAnswer.2.chA = s.chA := by
  unfold State.takeAnswer; split <;> rfl
@[simp] theorem takeAnswer_chB (s : State) :
    s.takeAnswer.2.chB = s.chB := by
  unfold State.takeAnswer; split <;> rfl
@[simp] theorem takeAnswer_phase (s : State) :
    s.takeAnswer.2.phase = s.phase := by
  unfold State.takeAnswer; split <;> rfl
@[simp] theorem takeAnswer_kickRem (s : State) :
    s.takeAnswer.2.kickRem = s.kickRem := by
  unfold State.takeAnswer; split <;> rfl
@[simp] theorem takeAnswer_tgtSpeed (s : State) :
    s.takeAnswer.2.tgtSpeed = s.tgtSpeed := by
  unfold State.takeAnswer; split <;> rfl
@[simp] theorem takeAnswer_tgtDuty (s : State) :
    s.takeAnswer.2.tgtDuty = s.tgtDuty := by
  unfold State.takeAnswer; split <;> rfl
@[simp] theorem takeAnswer_tgtFwd (s : State) :
    s.takeAnswer.2.tgtFwd = s.tgtFwd := by
  unfold State.takeAnswer; split <;> rfl
@[simp] theorem takeAnswer_out (s : State) :
    s.takeAnswer.2.out = s.out := by
  unfold State.takeAnswer; split <;> rfl
@[simp] theorem takeAnswer_turns (s : State) :
    s.takeAnswer.2.turns = s.turns := by
  unfold State.takeAnswer; split <;> rfl
@[simp] theorem takeAnswer_chPort (s : State) :
    s.takeAnswer.2.chPort = s.chPort := by
  unfold State.takeAnswer; split <;> rfl

@[simp] theorem takeTurn_cons (s : State) (t : Turn) (ts : List Turn) (h : s.turns = t :: ts) :
    s.takeTurn = (t, { s with turns := ts }) := by
  unfold State.takeTurn; rw [h]

@[simp] theorem takeAnswer_cons (s : State) (r : Option (List Byte)) (rs : List (Option (List Byte)))
    (h : s.answers = r :: rs) : s.takeAnswer = (r, { s with answers := rs }) := by
  unfold State.takeAnswer; rw [h]

/-! ## Views -/

@[simp] theorem last_duty (s : State) : s.last.duty = s.lastDuty := rfl
@[simp] theorem last_forward (s : State) : s.last.forward = s.lastFwd := rfl
@[simp] theorem tgt_duty (s : State) : s.tgt.duty = s.tgtDuty := rfl
@[simp] theorem tgt_forward (s : State) : s.tgt.forward = s.tgtFwd := rfl
@[simp] theorem ch_A (s : State) : s.ch .A = s.chA := rfl
@[simp] theorem ch_B (s : State) : s.ch .B = s.chB := rfl
@[simp] theorem chan_true : chan true = .A := rfl
@[simp] theorem chan_false : chan false = .B := rfl
@[simp] theorem opp_A : opp .A = .B := rfl
@[simp] theorem opp_B : opp .B = .A := rfl
@[simp] theorem opp_ne (c : Channel) : opp c ≠ c := by cases c <;> decide
@[simp] theorem ne_opp (c : Channel) : c ≠ opp c := by cases c <;> decide

/-- The written channel. -/
@[simp] theorem setCh_ch_self (s : State) (c : Channel) (v : ChVal) : (s.setCh c v).ch c = v := by
  cases c <;> rfl

/-- The other channel. -/
theorem setCh_ch_other (s : State) (c d : Channel) (v : ChVal) (h : d ≠ c) :
    (s.setCh c v).ch d = s.ch d := by
  cases c <;> cases d <;> first | rfl | exact absurd rfl h

end Sys2Proof.Machine
end

