-- ==== Sys2Proof/Laws/Drive.lean ====
section
/-! SUPPORT. The mapper, the classification and the channels of a command: one lemma per function. -/

namespace Sys2Proof.Machine

/-! ## The mapper -/

theorem dutyOf_val (m : Nat) :
    (dutyOf m).val = if m = 0 then 0 else max (min 100 (m * 100 / 32767)) 40 := by
  unfold dutyOf
  split <;> rfl

/-- A command is stopped exactly when its speed is 0. -/
theorem stopped_mapSpeed (speed : Int) : stopped (mapSpeed speed) = true ↔ speed = 0 := by
  rw [stopped, decide_eq_true_iff, Fin.ext_iff]
  show (dutyOf speed.natAbs).val = 0 ↔ _
  rw [dutyOf_val]
  split <;> omega

theorem stopped_iff (c : DriveCommand) : stopped c = true ↔ c.duty.val = 0 := by
  rw [stopped, decide_eq_true_iff, Fin.ext_iff]; rfl

theorem driving_iff (c : DriveCommand) : driving c = true ↔ 0 < c.duty.val := by
  rw [driving, decide_eq_true_iff, Fin.lt_def]; rfl

theorem driving_eq (c : DriveCommand) : driving c = !stopped c := by
  rw [Bool.eq_iff_iff, driving_iff, Bool.not_eq_true', ← Bool.not_eq_true, stopped_iff]
  omega

/-- A driving map is at least the floor. -/
theorem mapSpeed_floor {speed : Int} (h : stopped (mapSpeed speed) = false) :
    Config.minDuty ≤ (mapSpeed speed).duty.val := by
  have h0 : speed ≠ 0 := fun h0 => by
    have := (stopped_mapSpeed speed).mpr h0
    rw [h] at this
    cases this
  show Config.minDuty ≤ (dutyOf speed.natAbs).val
  rw [dutyOf_val, if_neg (by omega)]
  exact le_max_right _ _

/-! ## The classification, as one case each -/

theorem classify_nop_iff (last cur : DriveCommand) :
    classify last cur = .nop ↔ stopped cur = true ∧ stopped last = true := by
  unfold classify
  cases stopped cur <;> cases stopped last <;> simp; split <;> simp

theorem classify_stop_iff (last cur : DriveCommand) :
    classify last cur = .stop ↔ stopped cur = true ∧ stopped last = false := by
  unfold classify
  cases stopped cur <;> cases stopped last <;> simp; split <;> simp

theorem classify_kick_iff (last cur : DriveCommand) :
    classify last cur = .kick ↔
      stopped cur = false ∧ (stopped last = true ∨ last.forward ≠ cur.forward) := by
  unfold classify
  cases stopped cur <;> cases stopped last <;> simp

theorem classify_update_iff (last cur : DriveCommand) :
    classify last cur = .update ↔
      stopped cur = false ∧ stopped last = false ∧ last.forward = cur.forward := by
  unfold classify
  cases stopped cur <;> cases stopped last <;> simp

/-- The classification kicks exactly when the predicate says so (42_sequencer.md R82). -/
theorem classify_kick_iff_needKick (last cur : DriveCommand) :
    classify last cur = .kick ↔ needKick last cur = true := by
  rw [classify_kick_iff, needKick, driving_eq]
  cases stopped cur <;> cases stopped last <;> simp

/-! ## The channels of a command -/

theorem active_forward {c : DriveCommand} (h : c.forward = true) : active c = .A := by
  rw [active, h]; rfl

theorem active_reverse {c : DriveCommand} (h : c.forward = false) : active c = .B := by
  rw [active, h]; rfl

theorem inactive_forward {c : DriveCommand} (h : c.forward = true) : inactive c = .B := by
  rw [inactive, active_forward h]; rfl

theorem inactive_reverse {c : DriveCommand} (h : c.forward = false) : inactive c = .A := by
  rw [inactive, active_reverse h]; rfl

@[simp] theorem kickPercent_eq : kickPercent = 100 := rfl

/-! ## Channels after the writes of an operation -/

@[simp] theorem commit_ch (s : State) (speed : Speed) (c : DriveCommand) :
    (s.commit speed c).ch = s.ch := by
  funext d; cases d <;> rfl

@[simp] theorem latch_ch (s : State) (speed : Speed) (c : DriveCommand) :
    (s.latch speed c).ch = s.ch := by
  funext d; cases d <;> rfl

@[simp] theorem beginWait_ch (s : State) : s.beginWait.ch = s.ch := by
  funext d; cases d <;> rfl

@[simp] theorem emit_ch (s : State) (e : OutEvent) : (s.emit e).ch = s.ch := by
  funext d; cases d <;> rfl

@[simp] theorem stopWrites_ch (s : State) (d : Channel) : (stopWrites s).ch d = .off := by
  cases d <;> rfl

/-- `T.UPDATE` leaves exactly the active channel driven, at the target duty. -/
theorem updateWrites_ch (cur : DriveCommand) (s : State) (d : Channel) :
    (updateWrites cur s).ch d = if d = active cur then .duty cur.duty else .off := by
  cases h : cur.forward <;> cases d <;> simp [updateWrites, active, inactive, h]

/-- The first two writes of `T.KICK` leave exactly the active channel driven, at 100. -/
theorem kickWrites_ch (cur : DriveCommand) (s : State) (d : Channel) :
    (kickWrites cur s).ch d = if d = active cur then .duty 100 else .off := by
  cases h : cur.forward <;> cases d <;> simp [kickWrites, active, inactive, h]

theorem stopWrites_out (s : State) : (stopWrites s).out = s.out ++ [.off .A, .off .B] := by
  simp [stopWrites]

theorem updateWrites_out (cur : DriveCommand) (s : State) :
    (updateWrites cur s).out = s.out ++ [.off (inactive cur), .duty (active cur) cur.duty] := by
  simp [updateWrites]

theorem kickWrites_out (cur : DriveCommand) (s : State) :
    (kickWrites cur s).out = s.out ++ [.off (inactive cur), .duty (active cur) 100] := by
  simp [kickWrites]

theorem beginKick_out (speed : Speed) (cur : DriveCommand) (s : State) :
    (beginKick speed cur s).out =
      s.out ++ [.off (inactive cur), .duty (active cur) 100, .delay 150] := by
  simp [beginKick, kickWrites_out]

end Sys2Proof.Machine
end

