-- ==== Sys2Proof/Laws/Ops.lean ====
section
/-! SUPPORT. One lemma per shared operation that says once everything it can do. -/

namespace Sys2Proof.Machine

/-! ## Reports -/

/-- A report instruction is the report step of the speed it carries. -/
theorem exec_of_speedOf {i : Instr} {speed : Speed} (s : State) (h : speedOf i = some speed) :
    exec i s = reportStep speed s := by
  cases i <;> first | (cases h; rfl) | cases h

/-- Only reports carry a speed. -/
theorem speedOf_isSome (i : Instr) : (speedOf i).isSome = true ↔ i.port = .report := by
  cases i <;> simp [speedOf, Instr.port]

/-- What decodes at the report port is a report. -/
theorem decodeReport_port {buf : List Byte} {i : Instr} (h : decode .report buf = .ok i) :
    i.port = .report := by
  simp only [decode, decodeReport] at h
  split at h
  · obtain rfl := Decoded.ok.inj h
    unfold decodeReportWord
    split <;> [rfl; (split <;> [rfl; (split <;> rfl)])]
  · cases h

/-- A report step answers only in phase `POLL`, and there always. -/
theorem reportStep_poll {s : State} (speed : Speed) (h : s.phase = .poll) :
    reportStep speed s = .next (acceptSpeed speed s) := by
  unfold reportStep; rw [h]

theorem reportStep_kick {s : State} (speed : Speed) (h : s.phase = .kick) :
    reportStep speed s = .refused .pollInKick := by
  unfold reportStep; rw [h]

/-- Everything an accepted speed can do: nothing, or one of the four operations. -/
theorem acceptSpeed_cases (speed : Speed) (s : State) :
    (speed = s.lastSpeed ∧ acceptSpeed speed s = s) ∨
    (speed ≠ s.lastSpeed ∧ classify s.last (mapSpeed speed.toInt) = .nop ∧
      acceptSpeed speed s = s.commit speed (mapSpeed speed.toInt)) ∨
    (speed ≠ s.lastSpeed ∧ classify s.last (mapSpeed speed.toInt) = .stop ∧
      acceptSpeed speed s = (stopWrites s).commit speed (mapSpeed speed.toInt)) ∨
    (speed ≠ s.lastSpeed ∧ classify s.last (mapSpeed speed.toInt) = .update ∧
      acceptSpeed speed s =
        (updateWrites (mapSpeed speed.toInt) s).commit speed (mapSpeed speed.toInt)) ∨
    (speed ≠ s.lastSpeed ∧ classify s.last (mapSpeed speed.toInt) = .kick ∧
      acceptSpeed speed s = beginKick speed (mapSpeed speed.toInt) s) := by
  unfold acceptSpeed
  split
  · exact .inl ⟨‹_›, rfl⟩
  · unfold applyChanged
    cases h : classify s.last (mapSpeed speed.toInt) <;> simp [*]

/-! ## Events -/

/-- A poll in phase `POLL` always answers, and it is the decoded speed that acts. -/
theorem pollEvent_poll {s : State} (r : Option (List Byte)) (h : s.phase = .poll) :
    pollEvent r s = .next (match r.bind decodeSpeed with
      | none => s
      | some speed => acceptSpeed speed s) := by
  unfold pollEvent; rw [h]
  cases r with
  | none => rfl
  | some buf =>
    simp only [handleAnswer, Option.bind_some, decodeSpeed]
    cases hd : decode .report buf with
    | rejected _ => rfl
    | ok i =>
      obtain ⟨speed, hs⟩ := Option.isSome_iff_exists.mp
        ((speedOf_isSome i).mpr (decodeReport_port hd))
      simp only [hs, exec_of_speedOf s hs, reportStep_poll speed h]

theorem pollEvent_kick {s : State} (r : Option (List Byte)) (h : s.phase = .kick) :
    pollEvent r s = .refused .pollInKick := by
  unfold pollEvent; rw [h]

/-- Everything a poll that answers can do: it happens in `POLL`, and does nothing or accepts a
decoded speed. -/
theorem pollEvent_next {s t : State} {r : Option (List Byte)} (h : pollEvent r s = .next t) :
    s.phase = .poll ∧
    ((r.bind decodeSpeed = none ∧ t = s) ∨
      ∃ buf speed, r = some buf ∧ decodeSpeed buf = some speed ∧ t = acceptSpeed speed s) := by
  cases hp : s.phase with
  | kick => rw [pollEvent_kick r hp] at h; cases h
  | poll =>
    rw [pollEvent_poll r hp] at h
    refine ⟨rfl, ?_⟩
    cases hb : r.bind decodeSpeed with
    | none => rw [hb] at h; cases h; exact .inl ⟨rfl, rfl⟩
    | some speed =>
      rw [hb] at h; cases h
      obtain ⟨buf, rfl, hd⟩ := Option.bind_eq_some_iff.mp hb
      exact .inr ⟨buf, speed, rfl, hd, rfl⟩

/-- Everything a tick can do. -/
theorem tickEvent_cases (s : State) :
    (s.phase = .poll ∧ tickEvent s = s) ∨
    (s.phase = .kick ∧ s.kickRem ≠ 1 ∧ tickEvent s = { s with kickRem := s.kickRem - 1 }) ∨
    (s.phase = .kick ∧ s.kickRem = 1 ∧ tickEvent s = finishKick { s with kickRem := 0 }) := by
  unfold tickEvent
  cases hp : s.phase with
  | poll => exact .inl ⟨rfl, rfl⟩
  | kick =>
    by_cases h : s.kickRem = 1
    · exact .inr (.inr ⟨rfl, h, by rw [h]; rfl⟩)
    · have h' : s.kickRem - 1 ≠ 0 := by bv_omega
      exact .inr (.inl ⟨rfl, h, if_neg h'⟩)

/-- The end of a wait leaves the environment's side alone. -/
theorem finishKick_environment (s : State) :
    (finishKick s).turns = s.turns ∧ (finishKick s).answers = s.answers ∧
      (finishKick s).freeIx = s.freeIx ∧ (finishKick s).chPort = s.chPort := by
  refine ⟨?_, ?_, ?_, ?_⟩ <;> simp [finishKick, settleWrite]

/-- So does an accepted speed. -/
theorem acceptSpeed_environment (speed : Speed) (s : State) :
    (acceptSpeed speed s).turns = s.turns ∧ (acceptSpeed speed s).answers = s.answers ∧
      (acceptSpeed speed s).freeIx = s.freeIx ∧ (acceptSpeed speed s).chPort = s.chPort := by
  obtain ⟨_, e⟩ | ⟨_, _, e⟩ | ⟨_, _, e⟩ | ⟨_, _, e⟩ | ⟨_, _, e⟩ := acceptSpeed_cases speed s <;>
    rw [e] <;> simp [stopWrites, updateWrites, beginKick, kickWrites]

/-- So does every event that answers. -/
theorem react_environment {e : Event} {s t : State} (h : react e s = .next t) :
    t.turns = s.turns ∧ t.answers = s.answers ∧ t.freeIx = s.freeIx ∧ t.chPort = s.chPort := by
  cases e with
  | reset => cases h; exact ⟨rfl, rfl, rfl, rfl⟩
  | tick =>
    cases h
    obtain ⟨_, e⟩ | ⟨_, _, e⟩ | ⟨_, _, e⟩ := tickEvent_cases s <;> rw [e]
    · exact ⟨rfl, rfl, rfl, rfl⟩
    · exact ⟨rfl, rfl, rfl, rfl⟩
    · exact finishKick_environment _
  | poll r =>
    obtain ⟨_, ⟨_, e⟩ | ⟨_, speed, _, _, e⟩⟩ := pollEvent_next h
    · subst e; exact ⟨rfl, rfl, rfl, rfl⟩
    · subst e; exact acceptSpeed_environment speed s

/-! ## Steps -/

/-- With nothing at the channel port, a step is the next move. -/
theorem step_of_port_none {s : State} (h : s.chPort = none) :
    step s = turnMove s.takeTurn.1 s.takeTurn.2 := by
  unfold step advance; rw [h]

/-- Everything a step can do when nothing is at the channel port. -/
theorem step_cases {s t : State} (hp : s.chPort = none) (h : step s = .next t) :
    (s.takeTurn.1 = .tick ∧ t = tickEvent s.takeTurn.2) ∨
    (s.takeTurn.1 = .reset ∧ t = s.takeTurn.2.resetBlock) ∨
    (s.takeTurn.1 = .block ∧ s.phase = .kick ∧ t = s.takeTurn.2) ∨
    (s.takeTurn.1 = .block ∧ s.phase = .poll ∧
      pollEvent s.takeTurn.2.takeAnswer.1 s.takeTurn.2.takeAnswer.2 = .next t) := by
  rw [step_of_port_none hp] at h
  cases hk : s.takeTurn.1 with
  | tick => rw [hk] at h; cases h; exact .inl ⟨rfl, rfl⟩
  | reset => rw [hk] at h; cases h; exact .inr (.inl ⟨rfl, rfl⟩)
  | block =>
    rw [hk] at h
    simp only [turnMove, blockMove, takeTurn_phase] at h
    cases hph : s.phase with
    | kick => rw [hph] at h; cases h; exact .inr (.inr (.inl ⟨rfl, rfl, rfl⟩))
    | poll => rw [hph] at h; exact .inr (.inr (.inr ⟨rfl, rfl, h⟩))

/-- With nothing at the channel port, a step always answers (60_exceptions.md R125). -/
theorem step_answers {s : State} (hp : s.chPort = none) : ∃ t, step s = .next t := by
  rw [step_of_port_none hp]
  cases s.takeTurn.1 with
  | tick => exact ⟨_, rfl⟩
  | reset => exact ⟨_, rfl⟩
  | block =>
    simp only [turnMove, blockMove, takeTurn_phase]
    cases hph : s.phase with
    | kick => exact ⟨_, rfl⟩
    | poll => exact ⟨_, pollEvent_poll _ (by simp [hph])⟩

end Sys2Proof.Machine
end

