-- ==== Sys2Proof/Laws/PerInstr.lean ====
section
/-! SUPPORT. Statements for all instructions, one lemma per constructor. -/

namespace Sys2Proof.Laws.TableRow

open Sys2Proof

/-- The word of an instruction as its row of spec/opcode_table.json numbers it: both bytes of a
report, the value byte of a channel word. -/
def tableWord (i : Instr) : Nat :=
  match i.port, encode i with
  | .report, [b0, b1] => b0.toNat + 256 * b1.toNat
  | .channel, [v, _] => v.toNat
  | _, _ => 0

/-- The `match` and `mask` of the row. -/
def row : Instr → Nat × Nat
  | .spdStop => (0x0000, 0xFFFF)
  | .spdNegmax => (0x8000, 0xFFFF)
  | .spdFwd _ => (0x0000, 0x8000)
  | .spdRev _ => (0x8000, 0x8000)
  | .chOff _ => (0x00, 0xFF)
  | .chDuty _ _ => (0x80, 0x80)

/-- An instruction's two bytes carry the fixed bits of its row. -/
def Statement (i : Instr) : Prop :=
  (encode i).length = 2 ∧ tableWord i &&& (row i).2 = (row i).1

/-- The bytes of a word spell its value. -/
theorem tableWord_bytesOf (w : ReportWord) :
    (w.extractLsb' 0 8).toNat + 256 * (w.extractLsb' 8 8).toNat = w.toNat := by
  rw [← wordOf_toNat, wordOf_bytes]

/-- A mask of one bit picks that bit. -/
theorem and_two_pow_of_range {n k : Nat} (hlo : 2 ^ k ≤ n) (hhi : n < 2 ^ (k + 1)) :
    n &&& 2 ^ k = 2 ^ k := by
  rw [Nat.and_two_pow, Nat.testBit_eq_decide_div_mod_eq]
  have : n / 2 ^ k = 1 := Nat.div_eq_of_lt_le (by omega) (by rw [Nat.pow_succ] at hhi; omega)
  simp [this]

theorem and_two_pow_of_lt {n k : Nat} (h : n < 2 ^ k) : n &&& 2 ^ k = 0 := by
  rw [Nat.and_two_pow, Nat.testBit_lt_two_pow h]
  simp

theorem spdStop : Statement .spdStop := ⟨rfl, rfl⟩

theorem spdNegmax : Statement .spdNegmax := ⟨rfl, rfl⟩

theorem spdFwd (v : BitVec 15) : Statement (.spdFwd v) := by
  refine ⟨rfl, ?_⟩
  show _ + 256 * _ &&& 2 ^ 15 = 0
  rw [tableWord_bytesOf, fwdWord_toNat]
  exact and_two_pow_of_lt v.isLt

theorem spdRev (v : BitVec 15) : Statement (.spdRev v) := by
  refine ⟨rfl, ?_⟩
  show _ + 256 * _ &&& 2 ^ 15 = 2 ^ 15
  rw [tableWord_bytesOf, revWord_toNat]
  have := v.isLt
  exact and_two_pow_of_range (by omega) (by omega)

theorem chOff (c : Channel) : Statement (.chOff c) := by
  cases c <;> exact ⟨rfl, rfl⟩

theorem chDuty (c : Channel) (p : BitVec 7) : Statement (.chDuty c p) := by
  refine ⟨rfl, ?_⟩
  show (dutyByte p).toNat &&& 2 ^ 7 = 2 ^ 7
  rw [dutyByte_toNat]
  have := p.isLt
  exact and_two_pow_of_range (by omega) (by omega)

end Sys2Proof.Laws.TableRow
end

