-- ==== Sys2Proof/Tests/Slice0.lean ====
section
/-! SUPPORT. Tests on single steps, with results written out from the spec, and witnesses that the
statements' hypotheses can be met. -/

namespace Sys2Proof.Tests

open Sys2Proof Sys2Proof.Machine Sys2Proof.Safety

/-! ## Small states -/

/-- Some state answers. -/
def nextOf : Host.Outcome State Fault Refusal → Option State
  | .next t => some t
  | .fault _ => none
  | .refused _ => none

/-- 95_test_vectors.md section 5: last (16000; 48, true), ch (DUTY(48), OFF). -/
def forward48 : State :=
  { State.reset with lastSpeed := 16000, lastDuty := 48, chA := .duty 48 }

/-- 95_test_vectors.md section 5: last (-32766; 99, false), ch (OFF, DUTY(99)). -/
def reverse99 : State :=
  { State.reset with lastSpeed := -32766, lastDuty := 99, lastFwd := false, chB := .duty 99 }

/-- 95_test_vectors.md section 6: just after `SPD 16000` from reset. -/
def kicking : State :=
  { State.reset with
    chA := .duty 100
    phase := .kick
    kickRem := 150
    tgtSpeed := 16000
    tgtDuty := 48
    out := [.off .B, .duty .A 100, .delay 150] }

/-- The same one tick before the end. -/
def kickingLast : State := { kicking with kickRem := 1 }

/-- The block's move comes next and its poll is answered `r`. -/
def polling (r : Option (List Byte)) (s : State) : State :=
  { s with turns := [.block], answers := [r] }

/-- The move `t` comes next. -/
def moving (t : Turn) (s : State) : State := { s with turns := [t] }

/-- ControllerState, channels, phase and trace. -/
def view (s : State) :
    (Speed × Percent × Bool) × (ChVal × ChVal) × (Phase × BitVec 8) × List OutEvent :=
  (controller s, (s.chA, s.chB), (s.phase, s.kickRem), s.out)

/-! ## Well-formedness: one ill-formed term for each check -/

theorem test_wf_fwd_zero : (Instr.spdFwd 0).wellFormed = false := by decide
theorem test_wf_rev_zero : (Instr.spdRev 0).wellFormed = false := by decide
theorem test_wf_duty_101 : (Instr.chDuty .A 101).wellFormed = false := by decide

/-! ## Decoding, from words written out bit by bit (30_encoding.md R48, 10_state.md R24) -/

theorem test_decode_stop : decode .report [0b00000000, 0b00000000] = .ok .spdStop := by decide
theorem test_decode_negmax : decode .report [0b00000000, 0b10000000] = .ok .spdNegmax := by decide

/-- 0x0100: the second byte is the high byte. -/
theorem test_decode_fwd_256 :
    decode .report [0b00000000, 0b00000001] = .ok (.spdFwd 0b000000100000000) := by decide

/-- 0xF830, speed -2000 (20_memory.md R29). -/
theorem test_decode_rev_minus_2000 :
    decode .report [0b00110000, 0b11111000] = .ok (.spdRev 0b111100000110000) := by decide

theorem test_decode_off_A : decode .channel [0b00000000, 0b00000000] = .ok (.chOff .A) := by decide

/-- `DUTY(40)` = 0xA8. -/
theorem test_decode_duty_40_B :
    decode .channel [0b10101000, 0b00000001] = .ok (.chDuty .B 0b0101000) := by decide

theorem test_decode_lengths : decode .report [] = .rejected .badLength ∧
    decode .report [0xFF] = .rejected .badLength ∧
    decode .report [0x80, 0x3E, 0x00] = .rejected .badLength := by decide

/-- 0x01..0x7F and 0xE5..0xFF are never produced (10_state.md R24). -/
theorem test_decode_reserved : decode .channel [0x7F, 0] = .rejected .reservedChannelWord ∧
    decode .channel [0xE5, 0] = .rejected .reservedChannelWord ∧
    decode .channel [0x80, 2] = .rejected .badChannelNumber := by decide

/-! ## Decoder and mapper vectors (95_test_vectors.md sections 2 and 3) -/

theorem test_speed_swapped_bytes : decodeSpeed [0x3E, 0x80] = some (-32706) := by decide
theorem test_speed_saturated : decodeSpeed [0x00, 0x80] = some (-32767) := by decide
theorem test_map_floor_edge : mapSpeed 13434 = ⟨40, true⟩ ∧ mapSpeed 13435 = ⟨41, true⟩ := by decide
theorem test_map_full_edge : mapSpeed 32766 = ⟨99, true⟩ ∧ mapSpeed (-32767) = ⟨100, false⟩ := by
  decide

/-! ## Single steps (95_test_vectors.md sections 5 and 6) -/

/-- `SPD 1` from reset: the kick begins, ControllerState is as before. -/
theorem test_start_kicks :
    (nextOf (step (polling (some [0x01, 0x00]) State.reset))).map view =
      some ((0, 0, true), (.duty 100, .off), (.kick, 150), [.off .B, .duty .A 100, .delay 150]) := by
  decide

/-- `SPD 15729` at (16000; 48, true): the same command is written again. -/
theorem test_same_duty_rewrites :
    (nextOf (step (polling (some [0x71, 0x3D]) forward48))).map view =
      some ((15729, 48, true), (.duty 48, .off), (.poll, 0), [.off .B, .duty .A 48]) := by decide

/-- `SPD -16000` at (16000; 48, true): a reversal. -/
theorem test_reversal_kicks :
    (nextOf (step (polling (some [0x80, 0xC1]) forward48))).map view =
      some ((16000, 48, true), (.off, .duty 100), (.kick, 150),
        [.off .A, .duty .B 100, .delay 150]) := by decide

/-- `STOP` at (16000; 48, true). -/
theorem test_stop :
    (nextOf (step (polling (some [0x00, 0x00]) forward48))).map view =
      some ((0, 0, true), (.off, .off), (.poll, 0), [.off .A, .off .B]) := by decide

/-- `RPT 00 80` at (-32766; 99, false): an update to -32767. -/
theorem test_negmax_updates :
    (nextOf (step (polling (some [0x00, 0x80]) reverse99))).map view =
      some ((-32767, 100, false), (.off, .duty 100), (.poll, 0), [.off .A, .duty .B 100]) := by decide

/-- `RAW 00 00 00` at (16000; 48, true): not a stop. -/
theorem test_three_bytes_ignored :
    (nextOf (step (polling (some [0x00, 0x00, 0x00]) forward48))).map view =
      some (view forward48) := by decide

/-- `STOP` from reset: unchanged. -/
theorem test_first_stop_unchanged :
    (nextOf (step (polling (some [0x00, 0x00]) State.reset))).map view =
      some (view State.reset) := by decide

/-- `TICK` in a kick only counts. -/
theorem test_tick_counts :
    (nextOf (step (moving .tick kicking))).map view =
      some ((0, 0, true), (.duty 100, .off), (.kick, 149),
        [.off .B, .duty .A 100, .delay 150]) := by decide

/-- The last `TICK` settles and commits. -/
theorem test_last_tick_settles :
    (nextOf (step (moving .tick kickingLast))).map view =
      some ((16000, 48, true), (.duty 48, .off), (.poll, 0),
        [.off .B, .duty .A 100, .delay 150, .duty .A 48]) := by decide

/-- `RESET` in a kick. -/
theorem test_reset_in_kick :
    (nextOf (step (moving .reset kicking))) = some State.reset := by decide

/-- A report waiting during a kick is not read (43_control_loop.md R106). -/
theorem test_no_poll_in_kick :
    nextOf (step (polling (some [0x00, 0x00]) kicking)) =
      some { kicking with answers := [some [0x00, 0x00]] } := by decide

/-- `SetOff(B)` writes B and its event (20_memory.md R33). -/
theorem test_channel_off :
    (nextOf (exec (.chOff .B) reverse99)).map view =
      some ((-32766, 99, false), (.off, .off), (.poll, 0), [.off .B]) := by decide

/-- `SetDuty(A, 0)` is not `OFF` (10_state.md R13). -/
theorem test_channel_duty_zero :
    (nextOf (exec (.chDuty .A 0) State.reset)).map view =
      some ((0, 0, true), (.duty 0, .off), (.poll, 0), [.duty .A 0]) := by decide

/-- A report's table word runs as the first step after reset. -/
theorem test_first_step_runs_report_word :
    (nextOf (step (State.reset.withFetchWord 16 0xFFFF))).map view =
      some ((0, 0, true), (.off, .duty 100), (.kick, 150),
        [.off .A, .duty .B 100, .delay 150]) := by decide

/-- A channel word's table word runs as the first step after reset. -/
theorem test_first_step_runs_channel_word :
    (nextOf (step (State.reset.withFetchWord 8 0xA8))).map view =
      some ((0, 0, true), (.duty 40, .off), (.poll, 0), [.duty .A 40]) := by decide

/-- `SPD -2000` = `RPT 30 F8` (30_encoding.md R52). -/
theorem test_spd_item : spdItem (-2000) = .rpt 0x30 0xF8 ∧ stopItem = .rpt 0x00 0x00 := by decide

/-! ## Witnesses: the statements' hypotheses can be met

Each theorem names the statement it is for. -/

theorem witness_forward48_inv : Inv forward48 where
  last := ⟨by decide, by decide⟩
  steady _ := ⟨rfl, fun d => by cases d <;> rfl⟩
  kicking h := nomatch h
  port := rfl

theorem witness_kicking_inv : Inv kicking where
  last := ⟨by decide, by decide⟩
  steady h := nomatch h
  kicking _ := ⟨by decide, by decide, rfl, rfl, by decide, by decide, by decide⟩
  port := rfl

theorem witness_kickingLast_inv : Inv kickingLast where
  last := ⟨by decide, by decide⟩
  steady h := nomatch h
  kicking _ := ⟨by decide, by decide, rfl, rfl, by decide, by decide, by decide⟩
  port := rfl

theorem witness_kicking_trace : TraceInv kicking := rfl

/-- DecodeOfEncode, at the boundary of each constraint. -/
theorem witness_DecodeOfEncode : (Instr.spdFwd 1).wellFormed = true ∧
    (Instr.spdRev 32767).wellFormed = true ∧ (Instr.chDuty .B 100).wellFormed = true := by decide

theorem witness_EncodeOfDecode : decode .report [0x01, 0x80] = .ok (.spdRev 1) ∧
    decode .channel [0xE4, 0x01] = .ok (.chDuty .B 100) := by decide

/-- Every clause, at both ends of its range. -/
theorem witness_EveryWordHasOneClass :
    ∀ w ∈ [0x0000, 0x0001, 0x7FFF, 0x8000, 0x8001, 0xFFFF],
      w = (BitVec.ofNat 8 w).toNat + 256 * (BitVec.ofNat 8 (w / 256)).toNat := by decide

theorem witness_DecodeIsLittleEndianSaturating :
    (([] : List Byte).length ≠ 2 ∧ [0x00, 0x00, (0x00 : Byte)].length ≠ 2) ∧
    State.reset.phase = .poll ∧
    (32768 = (0x00 : Byte).toNat + 256 * (0x80 : Byte).toNat ∧
      (-32768 : Int) = (if 32768 < 32768 then (32768 : Int) else (32768 : Int) - 65536)) ∧
    (32767 = (0xFF : Byte).toNat + 256 * (0x7F : Byte).toNat ∧
      (32767 : Int) = (if 32767 < 32768 then (32767 : Int) else (32767 : Int) - 65536)) := by decide

theorem witness_SpeedRoundTrip : (-32767 : Int) ≤ -32767 ∧ (-32767 : Int) ≤ 32767 ∧
    (-32767 : Int) ≤ 32767 ∧ (32767 : Int) ≤ 32767 := by decide

theorem witness_ZeroIsTheOnlyStop : (-1 : Int) ≠ 0 ∧ (1 : Int) ≠ 0 := by decide

theorem witness_NonzeroDutyFormula : 1 ≤ (-1 : Int).natAbs ∧ (-1 : Int).natAbs ≤ 32767 ∧
    1 ≤ (32767 : Int).natAbs ∧ (32767 : Int).natAbs ≤ 32767 := by decide

theorem witness_DutyIsMonotone : (0 : Int) < 13434 ∧ (13434 : Int) ≤ 13435 ∧
    (13435 : Int) ≤ 32767 := by decide

theorem witness_DutyBreakpoints : (1 ≤ 1 ∧ 1 ≤ 100 ∧ 100 ≤ 100) ∧ (1 ≤ 13434 ∧ 13434 ≤ 13434) ∧
    (41 ≤ 41 ∧ 41 ≤ 99 ∧ 99 ≤ 99) ∧ 32767 ≤ 32767 := by decide

theorem witness_MapperArithmeticIsSafe : 32767 ≤ 32767 ∧ 0 ≤ 32767 := by decide

/-- Rows 1 to 6 of 42_sequencer.md R81, from 95_test_vectors.md section 4. -/
theorem witness_ClassificationRows :
    ((⟨0, true⟩ : DriveCommand).duty = 0 ∧ (⟨0, false⟩ : DriveCommand).duty = 0) ∧
    (0 < (⟨50, true⟩ : DriveCommand).duty ∧ (⟨0, true⟩ : DriveCommand).duty = 0) ∧
    ((⟨0, true⟩ : DriveCommand).duty = 0 ∧ 0 < (⟨65, false⟩ : DriveCommand).duty) ∧
    (0 < (⟨70, true⟩ : DriveCommand).duty ∧ 0 < (⟨50, false⟩ : DriveCommand).duty ∧
      (⟨70, true⟩ : DriveCommand).forward ≠ (⟨50, false⟩ : DriveCommand).forward) ∧
    (0 < (⟨40, true⟩ : DriveCommand).duty ∧ 0 < (⟨40, true⟩ : DriveCommand).duty ∧
      (⟨40, true⟩ : DriveCommand).forward = (⟨40, true⟩ : DriveCommand).forward) := by decide

theorem witness_KickExactlyOnStartOrReversal :
    ((⟨0, true⟩ : DriveCommand).duty = 0) ∧
    (0 < (⟨40, true⟩ : DriveCommand).duty ∧
      (⟨40, true⟩ : DriveCommand).forward = (⟨100, true⟩ : DriveCommand).forward) ∧
    (((⟨40, true⟩ : DriveCommand).duty = 0 ↔ (⟨100, true⟩ : DriveCommand).duty = 0) ∧
      (⟨40, true⟩ : DriveCommand).forward = (⟨100, true⟩ : DriveCommand).forward) := by decide

theorem witness_StoppedToStoppedIsNothing :
    ((⟨0, true⟩ : DriveCommand).duty = 0 ∧ (⟨0, false⟩ : DriveCommand).duty = 0) ∧
    Inv forward48 ∧ (0 : Speed) ≠ forward48.lastSpeed :=
  ⟨by decide, witness_forward48_inv, by decide⟩

/-- One pair for each clause. -/
theorem witness_OperationTraces :
    classify ⟨50, false⟩ ⟨0, true⟩ = .stop ∧ classify ⟨40, false⟩ ⟨40, true⟩ = .kick ∧
    classify ⟨0, true⟩ ⟨65, false⟩ = .kick ∧ classify ⟨40, true⟩ ⟨40, true⟩ = .update ∧
    classify ⟨61, false⟩ ⟨99, false⟩ = .update := by decide

/-- Unchanged, from rest at another speed, driving. -/
theorem witness_SpdStopResult :
    (State.reset.phase = .poll ∧ State.reset.lastSpeed = 0) ∧
    ({ forward48 with lastDuty := 0 }.phase = .poll ∧
      { forward48 with lastDuty := 0 }.lastSpeed ≠ 0 ∧ { forward48 with lastDuty := 0 }.lastDuty = 0) ∧
    (forward48.phase = .poll ∧ forward48.lastSpeed ≠ 0 ∧ forward48.lastDuty ≠ 0) := by decide

/-- `v` at both ends; unchanged, updating, starting and reversing. -/
theorem witness_SpdFwdResult :
    ((16000 : BitVec 15) ≠ 0 ∧ forward48.phase = .poll ∧
      (48 : Percent).val = max (min 100 ((16000 : BitVec 15).toNat * 100 / 32767)) 40 ∧
      forward48.lastSpeed.toInt = ((16000 : BitVec 15).toNat : Int)) ∧
    ((32767 : BitVec 15) ≠ 0 ∧
      (100 : Percent).val = max (min 100 ((32767 : BitVec 15).toNat * 100 / 32767)) 40 ∧
      forward48.lastSpeed.toInt ≠ ((32767 : BitVec 15).toNat : Int) ∧
      forward48.lastDuty ≠ 0 ∧ forward48.lastFwd = true) ∧
    ((1 : BitVec 15) ≠ 0 ∧
      (40 : Percent).val = max (min 100 ((1 : BitVec 15).toNat * 100 / 32767)) 40 ∧
      State.reset.phase = .poll ∧ State.reset.lastDuty = 0 ∧
      State.reset.lastSpeed.toInt ≠ ((1 : BitVec 15).toNat : Int) ∧
      reverse99.phase = .poll ∧ reverse99.lastFwd = false ∧
      reverse99.lastSpeed.toInt ≠ ((1 : BitVec 15).toNat : Int)) := by decide

theorem witness_SpdRevResult :
    ((2 : BitVec 15) ≠ 0 ∧ reverse99.phase = .poll ∧
      (99 : Percent).val = max (min 100 ((32768 - (2 : BitVec 15).toNat) * 100 / 32767)) 40 ∧
      reverse99.lastSpeed.toInt = ((2 : BitVec 15).toNat : Int) - 32768) ∧
    ((1 : BitVec 15) ≠ 0 ∧
      (100 : Percent).val = max (min 100 ((32768 - (1 : BitVec 15).toNat) * 100 / 32767)) 40 ∧
      reverse99.lastSpeed.toInt ≠ ((1 : BitVec 15).toNat : Int) - 32768 ∧
      reverse99.lastDuty ≠ 0 ∧ reverse99.lastFwd = false) ∧
    ((32767 : BitVec 15) ≠ 0 ∧
      (40 : Percent).val = max (min 100 ((32768 - (32767 : BitVec 15).toNat) * 100 / 32767)) 40 ∧
      State.reset.lastDuty = 0 ∧ forward48.phase = .poll ∧ forward48.lastFwd = true ∧
      forward48.lastSpeed.toInt ≠ ((32767 : BitVec 15).toNat : Int) - 32768) := by decide

theorem witness_SpdNegmaxResult :
    ({ reverse99 with lastSpeed := -32767 }.phase = .poll ∧
      { reverse99 with lastSpeed := -32767 }.lastSpeed.toInt = -32767) ∧
    (reverse99.phase = .poll ∧ reverse99.lastSpeed.toInt ≠ -32767 ∧ reverse99.lastDuty ≠ 0 ∧
      reverse99.lastFwd = false) ∧
    (forward48.phase = .poll ∧ forward48.lastSpeed.toInt ≠ -32767 ∧ forward48.lastFwd = true ∧
      State.reset.lastDuty = 0) := by decide

theorem witness_ChannelWriteResult :
    ((100 : BitVec 7).toNat ≤ 100 ∧ (100 : Percent).val = (100 : BitVec 7).toNat) ∧
    ((0 : BitVec 7).toNat ≤ 100 ∧ (0 : Percent).val = (0 : BitVec 7).toNat) := by decide

theorem witness_DutyAboveHundredIsRefused :
    100 < (101 : BitVec 7).toNat ∧ 100 < (127 : BitVec 7).toNat := by decide

/-- A report that answers in each phase of the result. -/
theorem witness_ReportFrame :
    Instr.spdStop.port = .report ∧ (nextOf (exec .spdStop forward48)).map State.phase = some .poll ∧
    (Instr.spdRev 1).port = .report ∧
    (nextOf (exec (.spdRev 1) forward48)).map State.phase = some .kick := by decide

theorem witness_NothingToDoChangesNothing :
    (polling none forward48).phase = .poll ∧ (polling none forward48).chPort = none ∧
    (polling none forward48).turns = [.block] ∧ (polling none forward48).answers = [none] ∧
    (polling (some [0x80]) forward48).answers = [some [0x80]] ∧ decodeSpeed [0x80] = none := by decide

theorem witness_UnchangedSpeedChangesNothing :
    forward48.phase = .poll ∧ decodeSpeed [0x80, 0x3E] = some forward48.lastSpeed := by decide

theorem witness_SameDutyStillRewrites :
    forward48.phase = .poll ∧ decodeSpeed [0x71, 0x3D] = some 15729 ∧
    (15729 : Speed) ≠ forward48.lastSpeed ∧
    mapSpeed (15729 : Speed).toInt = forward48.last ∧ 0 < forward48.lastDuty := by decide

/-- Phase `KICK` with each move next, and the count at both ends. -/
theorem witness_NoPollDuringKick :
    kicking.phase = .kick ∧ (Instr.spdFwd 1).port = .report ∧ kicking.chPort = none ∧
    (nextOf (step (moving .tick kicking))).isSome = true ∧
    (nextOf (step (moving .reset kicking))).isSome = true ∧
    (nextOf (step (moving .block kicking))).isSome = true ∧
    kicking.kickRem.toNat ≤ 150 ∧ 1 ≤ kickingLast.kickRem.toNat := by decide

theorem witness_TickResult :
    forward48.phase = .poll ∧ (kicking.phase = .kick ∧ kicking.kickRem ≠ 1) ∧
    ({ kicking with kickRem := 0 }.phase = .kick ∧ { kicking with kickRem := 0 }.kickRem ≠ 1) ∧
    (kickingLast.phase = .kick ∧ kickingLast.kickRem = 1 ∧ kickingLast.tgtFwd = true) ∧
    { kickingLast with tgtFwd := false }.tgtFwd = false := by decide

/-- The first clause with 149 ticks left of 150, the second with the last one. -/
theorem witness_KickLastsExactlyItsTicks :
    ({ kicking with turns := List.replicate 149 Turn.tick }.chPort = none ∧ kicking.phase = .kick ∧
      kicking.kickRem.toNat = 150 ∧ 149 < 150 ∧
      { kicking with turns := List.replicate 149 Turn.tick }.turns =
        List.replicate 149 Turn.tick ++ []) ∧
    (kickingLast.chPort = none ∧ kickingLast.phase = .kick ∧ kickingLast.kickRem.toNat = 1 ∧
      { kickingLast with turns := [.tick] }.turns = List.replicate 1 Turn.tick ++ []) := by
  simp [kicking, kickingLast, State.reset]

/-- 151 scheduled moves and the answer `r` to the poll among them. -/
def scheduled (r : Option (List Byte)) (s : State) : State :=
  { s with turns := .block :: (List.replicate 150 .tick ++ []), answers := [r] }

/-- An answer that begins a kickstart, one that updates and one that does nothing; each schedule is
the one the statement asks for. -/
theorem witness_PollAndTicksRefineIterate :
    (∀ (r : Option (List Byte)) (s : State),
      (scheduled r s).turns = .block :: (List.replicate 150 .tick ++ []) ∧
      (scheduled r s).answers = r :: []) ∧
    ((scheduled (some [0x80, 0x3E]) State.reset).chPort = none ∧
      (scheduled (some [0x80, 0x3E]) State.reset).phase = .poll ∧
      (nextOf (step (scheduled (some [0x80, 0x3E]) State.reset))).map State.phase = some .kick) ∧
    ((scheduled (some [0x71, 0x3D]) forward48).chPort = none ∧
      (scheduled (some [0x71, 0x3D]) forward48).phase = .poll ∧
      (nextOf (step (scheduled (some [0x71, 0x3D]) forward48))).map controller =
        some (15729, 48, true)) ∧
    ((scheduled none forward48).chPort = none ∧ (scheduled none forward48).phase = .poll) :=
  ⟨fun _ _ => ⟨rfl, rfl⟩, ⟨rfl, rfl, by decide⟩, ⟨rfl, rfl, by decide⟩, rfl, rfl⟩

/-- Each of the three writers. -/
theorem witness_ControllerStateWriters :
    ((nextOf (step (moving .reset forward48))).map controller = some (0, 0, true) ∧
      controller forward48 ≠ (0, 0, true)) ∧
    ((nextOf (step (polling (some [0x71, 0x3D]) forward48))).map controller =
      some (15729, 48, true) ∧ controller forward48 ≠ (15729, 48, true)) ∧
    ((nextOf (step (moving .tick kickingLast))).map controller = some (16000, 48, true) ∧
      controller kickingLast ≠ (16000, 48, true)) := by decide

theorem witness_KickIsNeverCancelled :
    (moving .tick kickingLast).phase = .kick ∧ (moving .tick kickingLast).chPort = none ∧
    (moving .tick kickingLast).takeTurn.1 ≠ .reset ∧
    (nextOf (step (moving .tick kickingLast))).isSome = true ∧
    (moving .block kicking).takeTurn.1 ≠ .reset ∧
    (nextOf (step (moving .block kicking))).isSome = true := by decide

theorem witness_FirstDriveIsAKick : State.reset.phase = .poll ∧ State.reset.lastSpeed = 0 ∧
    State.reset.lastDuty = 0 ∧ decodeSpeed [0xFF, 0xFF] = some (-1) := by decide

theorem witness_NoRunEverStops : forward48.chPort = none ∧ kicking.chPort = none := by decide

theorem witness_DirectionOfAStoppedCommandIsIrrelevant :
    State.reset.lastDuty = 0 ∧
    (nextOf (react (.poll (some [0xFF, 0xFF])) State.reset)).isSome = true := by decide

/-- Two states that differ in their channels. -/
theorem witness_DecisionsIgnoreTheChannels :
    controller forward48 = controller { forward48 with chA := .off } ∧
    forward48.phase = { forward48 with chA := ChVal.off }.phase ∧
    forward48 ≠ { forward48 with chA := .off } ∧
    (nextOf (react (.poll (some [0x01, 0x80])) forward48)).isSome = true := by decide

/-- Two different reports of one speed. -/
theorem witness_OnlyTheDecodedSpeedMatters :
    decodeSpeed [0x00, 0x80] = decodeSpeed [0x01, 0x80] ∧
    ([0x00, 0x80] : List Byte) ≠ [0x01, 0x80] := by decide

/-- The invariant holds where a tick ends a kick, and that step answers. -/
theorem witness_StepKeepsTheInvariant :
    Inv (moving .tick kickingLast) ∧ (nextOf (step (moving .tick kickingLast))).isSome = true :=
  ⟨⟨witness_kickingLast_inv.last, fun h => (nomatch h),
    fun _ => witness_kickingLast_inv.kicking rfl, rfl⟩, by decide⟩

theorem witness_InvariantBoundsDutiesAndChannels :
    Inv forward48 ∧ forward48.ch .A = .duty 48 := ⟨witness_forward48_inv, rfl⟩

theorem witness_StepKeepsTheTraceDisciplined :
    Inv (moving .tick kickingLast) ∧ TraceInv (moving .tick kickingLast) ∧
    (nextOf (step (moving .tick kickingLast))).isSome = true :=
  ⟨witness_StepKeepsTheInvariant.1, rfl, by decide⟩

theorem witness_NeverBothDrivenBetweenWrites : TraceInv kicking ∧ kicking.out ≠ [] :=
  ⟨witness_kicking_trace, by decide⟩

theorem witness_StepRunsTheDecodedInstruction :
    ((polling (some [0x80, 0x3E]) State.reset).chPort = none ∧
      (polling (some [0x80, 0x3E]) State.reset).phase = .poll ∧
      (polling (some [0x80, 0x3E]) State.reset).turns = [.block] ∧
      (polling (some [0x80, 0x3E]) State.reset).answers = [some [0x80, 0x3E]] ∧
      decode .report [0x80, 0x3E] = .ok (.spdFwd 16000)) ∧
    ({ State.reset with chPort := some [0xA8, 0x01] }.chPort = some [0xA8, 0x01] ∧
      decode .channel [0xA8, 0x01] = .ok (.chDuty .B 40)) ∧
    decodeTableWord 16 0xFFFF = some (.spdRev 32767) ∧
    decodeTableWord 8 0xE4 = some (.chDuty .A 100) := by decide

theorem witness_StepAsksTheEnvironment :
    (moving .tick forward48).chPort = none ∧ (moving .tick forward48).turns = [.tick] ∧
    (moving .reset forward48).turns = [.reset] ∧ forward48.turns = [] ∧
    (moving .block forward48).turns = [.block] ∧ (moving .block forward48).phase = .poll ∧
    (moving .block forward48).answers = [] ∧
    (polling (some [0x80]) forward48).answers = [some [0x80]] := by decide

/-- A start, a tick, a reset and a malformed report. -/
theorem witness_ScheduledItemsRunAsTheirEvents :
    State.reset.chPort = none ∧
    (nextOf (reactAll [spdItem 16000, .tick, .reset, .raw [0x80]] State.reset)) =
      some State.reset := by decide

/-- The four kinds of clock, and two pin samples that differ only in what is not read. -/
theorem witness_ClockIsOneEvent :
    (⟨true, true, true, 2, 0, 0, true⟩ : PinsIn).rst = true ∧
    (⟨false, true, true, 2, 0, 0, true⟩ : PinsIn).rst = false ∧ forward48.phase = .poll ∧
    kicking.phase = .kick ∧ (⟨false, true, true, 2, 0, 0, true⟩ : PinsIn).tick1ms = true ∧
    (⟨false, false, true, 2, 0, 0, true⟩ : PinsIn).tick1ms = false ∧
    (⟨false, false, true, 3, 0, 0, true⟩ : PinsIn) ≠ ⟨false, false, true, 3, 7, 9, false⟩ := by decide

theorem witness_DerivedViewIsWellDefined :
    (Inv forward48 ∧ forward48.phase = .poll ∧ forward48.lastDuty ≠ 0) ∧
    (Inv kicking ∧ kicking.phase = .kick) :=
  ⟨⟨witness_forward48_inv, rfl, by decide⟩, witness_kicking_inv, rfl⟩

end Sys2Proof.Tests
end

section
/-! PROOFS. The channel writes (20_memory.md R33): what the two output words do to the state. -/

namespace Sys2Proof.Machine

/-! ## One rule per channel write -/

/-- The write to channel A keeps channel B and every other field. -/
theorem chWrite_A (s : State) (v : ChVal) :
    s.chWrite .A v = { s with chA := v, out := s.out ++ [writeEvent .A v] } := rfl

/-- The write to channel B keeps channel A and every other field. -/
theorem chWrite_B (s : State) (v : ChVal) :
    s.chWrite .B v = { s with chB := v, out := s.out ++ [writeEvent .B v] } := rfl

/-- The contract of `CH.DUTY` admits exactly the percents up to 100, at their own value. -/
theorem percentOf_eq_some {p : BitVec 7} {q : Percent} : percentOf p = some q ↔ q.val = p.toNat := by
  unfold percentOf
  split
  case isTrue => simp [Fin.ext_iff, eq_comm]
  case isFalse hp =>
    have hq : q.val ≤ Config.dutyMax := Nat.le_of_lt_succ q.isLt
    simp only [reduceCtorEq, false_iff]
    omega

theorem exec_chOff (c : Channel) (s : State) : exec (.chOff c) s = .next (s.chWrite c .off) := rfl

theorem exec_chDuty {p : BitVec 7} {q : Percent} (c : Channel) (s : State) (h : q.val = p.toNat) :
    exec (.chDuty c p) s = .next (s.chWrite c (.duty q)) := by
  change execChDuty c p s = _
  rw [execChDuty, percentOf_eq_some.mpr h]
  rfl

/-! ## The statement -/

/-- Settles O22: each word is the write of its value to its channel, and a write to one channel
leaves the other. -/
theorem channelWriteResult : Obligations.ChannelWriteResult := by
  intro s
  refine ⟨?offA, ?offB, fun p q _ hq => ⟨?dutyA, ?dutyB⟩⟩
  case offA => rw [exec_chOff, chWrite_A, writeEvent]
  case offB => rw [exec_chOff, chWrite_B, writeEvent]
  case dutyA => rw [exec_chDuty .A s hq, chWrite_A, writeEvent]
  case dutyB => rw [exec_chDuty .B s hq, chWrite_B, writeEvent]

end Sys2Proof.Machine
end

section
/-! PROOFS. The class table of the report words (30_encoding.md R48), row by row. -/

namespace Sys2Proof.Machine

/-! ## One rule per row: the class of the words in its range -/

theorem decodeReportWord_of_toNat_eq_zero {w : ReportWord} (h : w.toNat = 0x0000) :
    decodeReportWord w = .spdStop := by
  rw [BitVec.eq_of_toNat_eq (y := 0x0000) h]
  rfl

theorem decodeReportWord_of_toNat_eq_signBit {w : ReportWord} (h : w.toNat = 0x8000) :
    decodeReportWord w = .spdNegmax := by
  rw [BitVec.eq_of_toNat_eq (y := 0x8000) h]
  rfl

/-- Outside the two exact rows the sign bit alone chooses the class. -/
theorem decodeReportWord_of_not_exact {w : ReportWord} (h0 : w.toNat ≠ 0x0000)
    (h8 : w.toNat ≠ 0x8000) :
    decodeReportWord w = if 0x8000 ≤ w.toNat then .spdRev (lowBits w) else .spdFwd (lowBits w) := by
  have hstop : w ≠ 0x0000 := fun h => h0 (congrArg BitVec.toNat h)
  have hmax : w ≠ 0x8000 := fun h => h8 (congrArg BitVec.toNat h)
  simp only [decodeReportWord, if_neg hstop, if_neg hmax, signBit_iff]

theorem decodeReportWord_of_positive {w : ReportWord} (hlo : 0x0001 ≤ w.toNat)
    (hhi : w.toNat ≤ 0x7FFF) : decodeReportWord w = .spdFwd (lowBits w) := by
  rw [decodeReportWord_of_not_exact (by omega) (by omega), if_neg (by omega)]

theorem decodeReportWord_of_negative {w : ReportWord} (hlo : 0x8001 ≤ w.toNat) :
    decodeReportWord w = .spdRev (lowBits w) := by
  rw [decodeReportWord_of_not_exact (by omega) (by omega), if_pos (by omega)]

/-! ## The statement -/

/-- Settles O4: each row's range has the row's class, and the class carries the row's speed. -/
theorem everyWordHasOneClass : Obligations.EveryWordHasOneClass := by
  intro b0 b1 w hw
  rw [← wordOf_toNat] at hw
  subst hw
  have hdecode := decode_two_bytes b0 b1
  obtain ⟨speed, hspeed⟩ :=
    Option.isSome_iff_exists.mp ((speedOf_isSome _).mpr (decodeReport_port hdecode))
  refine ⟨_, speed, hdecode, hspeed, fun h => ?stop, fun h => ?negmax, fun hlo hhi => ?fwd,
    fun hlo _ => ?rev⟩
  case stop =>
    have hclass := decodeReportWord_of_toNat_eq_zero h
    obtain rfl : stopSpeed = speed := by rw [hclass] at hspeed; exact Option.some.inj hspeed
    exact ⟨hclass, rfl⟩
  case negmax =>
    have hclass := decodeReportWord_of_toNat_eq_signBit h
    obtain rfl : negmaxSpeed = speed := by rw [hclass] at hspeed; exact Option.some.inj hspeed
    exact ⟨hclass, rfl⟩
  case fwd =>
    have hclass := decodeReportWord_of_positive hlo hhi
    obtain rfl : fwdSpeed _ = speed := by rw [hclass] at hspeed; exact Option.some.inj hspeed
    have hv := lowBits_toNat (wordOf b0 b1)
    exact ⟨_, by omega, hclass, fwdSpeed_toInt _⟩
  case rev =>
    have hclass := decodeReportWord_of_negative hlo
    obtain rfl : revSpeed _ = speed := by rw [hclass] at hspeed; exact Option.some.inj hspeed
    have hlt := (wordOf b0 b1).isLt
    have hv := lowBits_toNat (wordOf b0 b1)
    have hne : lowBits (wordOf b0 b1) ≠ 0 := by bv_omega
    exact ⟨_, by omega, hclass, revSpeed_toInt hne⟩

end Sys2Proof.Machine
end

section
/-! PROOFS. The decoder over integers (40_decoder.md R60): little-endian, saturated, or nothing. -/

namespace Sys2Proof.Machine

/-! ## A word is its class and its low bits -/

theorem fwdWord_lowBits {w : ReportWord} (h : w.toNat < 32768) : fwdWord (lowBits w) = w :=
  BitVec.eq_of_toNat_eq (by rw [fwdWord_toNat, lowBits_toNat, Nat.mod_eq_of_lt h])

theorem revWord_lowBits {w : ReportWord} (h : 32768 ≤ w.toNat) : revWord (lowBits w) = w := by
  apply BitVec.eq_of_toNat_eq
  rw [revWord_toNat, lowBits_toNat]
  have := w.isLt
  omega

/-- Each class carries its own word, saturated: the classes only split what R60 says at once. -/
theorem speedOf_decodeReportWord (w : ReportWord) :
    speedOf (decodeReportWord w) = some (saturate w) := by
  by_cases h0 : w.toNat = 0x0000
  case pos =>
    rw [decodeReportWord_of_toNat_eq_zero h0, BitVec.eq_of_toNat_eq (y := 0x0000) h0]
    rfl
  by_cases h8 : w.toNat = 0x8000
  case pos =>
    rw [decodeReportWord_of_toNat_eq_signBit h8, BitVec.eq_of_toNat_eq (y := 0x8000) h8]
    rfl
  rw [decodeReportWord_of_not_exact h0 h8]
  split
  case isTrue hneg => rw [speedOf, revSpeed, revWord_lowBits hneg]
  case isFalse hpos => rw [speedOf, fwdSpeed, fwdWord_lowBits (Nat.lt_of_not_le hpos)]

/-! ## `Decode` -/

theorem decodeSpeed_two_bytes (b0 b1 : Byte) :
    decodeSpeed [b0, b1] = some (saturate (wordOf b0 b1)) :=
  speedOf_decodeReportWord (wordOf b0 b1)

theorem decodeSpeed_other_length {buf : List Byte} (h : buf.length ≠ 2) :
    decodeSpeed buf = none := by
  rw [decodeSpeed, decode_other_length h]

/-- A poll whose answer decodes to nothing leaves the state as it is. -/
theorem react_poll_of_decodeSpeed_eq_none {buf : List Byte} {s : State}
    (hbuf : decodeSpeed buf = none) (hs : s.phase = .poll) :
    react (.poll (some buf)) s = .next s := by
  change pollEvent (some buf) s = .next s
  rw [pollEvent_poll _ hs, Option.bind_some, hbuf]

/-! ## Saturation and sign over the integers -/

theorem saturate_toInt (raw : Speed) :
    (saturate raw).toInt = if raw.toInt = -32768 then -32767 else raw.toInt := by
  have hraw : raw.toInt = -32768 ↔ raw = 0x8000 := BitVec.toInt_inj (y := 0x8000)
  simp only [hraw, saturate]
  split <;> rfl

/-- R60's `sext_16` of the zero-extended bytes. -/
theorem wordOf_toInt (b0 b1 : Byte) :
    (wordOf b0 b1).toInt =
      if b0.toNat + 256 * b1.toNat < 32768 then ((b0.toNat + 256 * b1.toNat : Nat) : Int)
      else ((b0.toNat + 256 * b1.toNat : Nat) : Int) - 65536 := by
  rw [BitVec.toInt_eq_toNat_cond, wordOf_toNat]
  split <;> split <;> omega

/-! ## The statement -/

/-- Settles O5: two bytes decode to their saturated word, read in two's complement, and every other
length is rejected. -/
theorem decodeIsLittleEndianSaturating : Obligations.DecodeIsLittleEndianSaturating := by
  refine ⟨fun buf hlen => ?otherLength, fun b0 b1 w raw hw hraw => ?twoBytes, ?examples⟩
  case otherLength =>
    have hnone := decodeSpeed_other_length hlen
    exact ⟨hnone, fun s => react_poll_of_decodeSpeed_eq_none hnone⟩
  case twoBytes =>
    subst hw
    rw [← wordOf_toInt] at hraw
    subst hraw
    exact ⟨_, decodeSpeed_two_bytes b0 b1, saturate_toInt _⟩
  case examples => decide

end Sys2Proof.Machine
end

section
/-! PROOFS. The mapper (41_mapper.md R71 to R74): zero, the duty formula, the sign, monotonicity. -/

namespace Sys2Proof.Machine

/-! ## The two fields of the map -/

theorem mapSpeed_forward (speed : Int) : (mapSpeed speed).forward = true ↔ 0 ≤ speed :=
  decide_eq_true_iff

theorem mapSpeed_duty (speed : Int) : (mapSpeed speed).duty = dutyOf speed.natAbs := rfl

theorem mapSpeed_duty_eq_zero (speed : Int) : (mapSpeed speed).duty.val = 0 ↔ speed = 0 := by
  rw [← stopped_iff, stopped_mapSpeed]

/-- The floor of R72, for the speeds `mapSpeed_floor` speaks of by their command. -/
theorem mapSpeed_duty_ge {speed : Int} (h : speed ≠ 0) : 40 ≤ (mapSpeed speed).duty.val :=
  mapSpeed_floor (Bool.eq_false_iff.mpr (mt (stopped_mapSpeed speed).mp h))

theorem mapSpeed_duty_val {speed : Int} (h : speed ≠ 0) :
    (mapSpeed speed).duty.val = max (min 100 (speed.natAbs * 100 / 32767)) 40 := by
  rw [mapSpeed_duty, dutyOf_val, if_neg (Int.natAbs_ne_zero.mpr h)]

/-- The cases of `dutyOf_val` are in order too: magnitude 0 has the least duty, and on the others
every operation of the formula is monotone. -/
theorem dutyOf_monotone : Monotone dutyOf := by
  intro m n hmn
  rw [Fin.le_def, dutyOf_val, dutyOf_val]
  by_cases hm : m = 0
  case pos => rw [if_pos hm]; exact Nat.zero_le _
  case neg =>
    rw [if_neg hm, if_neg (by omega)]
    gcongr

/-! ## The statements -/

/-- Settles O8: the formula and the floor hold for every nonzero speed, and a percent is at most
100. -/
theorem nonzeroDutyFormula : Obligations.NonzeroDutyFormula := by
  refine ⟨fun speed hlo _ => ?formula, by decide, by decide⟩
  have hne : speed ≠ 0 := Int.natAbs_pos.mp hlo
  exact ⟨mapSpeed_duty_val hne, mapSpeed_duty_ge hne,
    Nat.le_of_lt_succ (mapSpeed speed).duty.isLt⟩

/-- Settles O10: the duty is monotone in the magnitude, which orders the positive speeds; speeds 1
and 2 both get the floor. -/
theorem dutyIsMonotone : Obligations.DutyIsMonotone := by
  refine ⟨fun a b _ hab _ => ?monotone, 1, 2, by decide⟩
  have hmagnitude : a.natAbs ≤ b.natAbs := by omega
  exact dutyOf_monotone hmagnitude

/-- Settles O7: a command is stopped exactly at speed 0, and a driving one is at the floor or
above. -/
theorem zeroIsTheOnlyStop : Obligations.ZeroIsTheOnlyStop :=
  ⟨rfl, fun speed => ⟨mapSpeed_duty_eq_zero speed, mapSpeed_duty_ge⟩⟩

/-- Settles O9: the map reads the sign for the direction and the magnitude for the duty. -/
theorem directionIsTheSign : Obligations.DirectionIsTheSign := by
  refine ⟨mapSpeed_forward, fun speed => ?even, by decide, by decide⟩
  rw [mapSpeed_duty, mapSpeed_duty, Int.natAbs_neg]

end Sys2Proof.Machine
end

section
/-! PROOFS. The Kickstart Sequencer (42_sequencer.md R82, R84): when it kicks, when it does nothing. -/

namespace Sys2Proof.Machine

open Sys2Proof.Safety

/-! ## When it kicks -/

theorem stopped_iff_duty_eq_zero (c : DriveCommand) : stopped c = true ↔ c.duty = 0 :=
  decide_eq_true_iff

theorem needKick_iff (last cur : DriveCommand) :
    needKick last cur = true ↔
      0 < cur.duty ∧ (last.duty = 0 ∨ last.forward ≠ cur.forward) := by
  rw [← classify_kick_iff_needKick, classify_kick_iff, ← Bool.not_eq_true,
    stopped_iff_duty_eq_zero, stopped_iff_duty_eq_zero, Fin.pos_iff_ne_zero]

/-! ## When it does nothing -/

theorem runSequence_of_nop {last cur : DriveCommand} (s : State) (h : classify last cur = .nop) :
    runSequence last cur s = s := by
  obtain ⟨hcur, hlast⟩ := (classify_nop_iff last cur).mp h
  rw [runSequence, if_pos hcur, if_pos hlast]

/-- Where the last command is the map of the last speed, only speed 0 has left it stopped. -/
theorem stopped_last_iff {s : State} (h : LastIsMapped s) :
    stopped s.last = true ↔ s.lastSpeed.toInt = 0 := by
  obtain ⟨-, hmap⟩ := h
  rw [hmap, stopped_mapSpeed]

/-- `T.NOP` needs speed 0 both before and now, and then the speed has not changed. -/
theorem eq_lastSpeed_of_nop {s : State} {speed : Speed} (hs : LastIsMapped s)
    (h : classify s.last (mapSpeed speed.toInt) = .nop) : speed = s.lastSpeed := by
  obtain ⟨hcur, hlast⟩ := (classify_nop_iff _ _).mp h
  have hnow : speed.toInt = 0 := (stopped_mapSpeed _).mp hcur
  have hbefore : s.lastSpeed.toInt = 0 := (stopped_last_iff hs).mp hlast
  exact BitVec.eq_of_toInt_eq (hnow.trans hbefore.symm)

/-! ## The statements -/

/-- Settles O15: two stopped commands select `T.NOP`, which returns the state, and a changed speed
does not select it. -/
theorem stoppedToStoppedIsNothing : Obligations.StoppedToStoppedIsNothing := by
  refine ⟨fun last cur s hlast hcur => ?nothing, fun s speed hinv hne => ?neverSelected⟩
  case nothing =>
    have hnop : classify last cur = .nop := (classify_nop_iff last cur).mpr
      ⟨(stopped_iff_duty_eq_zero cur).mpr hcur, (stopped_iff_duty_eq_zero last).mpr hlast⟩
    exact ⟨hnop, runSequence_of_nop s hnop⟩
  case neverSelected => exact fun hnop => hne (eq_lastSpeed_of_nop hinv.last hnop)

/-- Settles O14: the predicate reads each duty only as 0 or not, and every clause is read off its
equivalence. -/
theorem kickExactlyOnStartOrReversal : Obligations.KickExactlyOnStartOrReversal := by
  intro last cur
  refine ⟨needKick_iff last cur, classify_kick_iff_needKick last cur, fun hstop => ?onStop,
    fun hdriving hsame => ?sameDirection, fun last' cur' hlast hcur hlastFwd hcurFwd => ?sizes⟩
  case onStop =>
    rw [← Bool.not_eq_true, needKick_iff]
    exact fun ⟨hpos, _⟩ => Fin.pos_iff_ne_zero.mp hpos hstop
  case sameDirection =>
    rw [← Bool.not_eq_true, needKick_iff]
    rintro ⟨-, hstopped | hreversed⟩
    · exact Fin.pos_iff_ne_zero.mp hdriving hstopped
    · exact hreversed hsame
  case sizes =>
    rw [Bool.eq_iff_iff, needKick_iff, needKick_iff, Fin.pos_iff_ne_zero, Fin.pos_iff_ne_zero,
      ne_eq, ne_eq, hlast, hcur, hlastFwd, hcurFwd]

end Sys2Proof.Machine
end

section
/-! PROOFS. Encoder and decoder are inverse on the well-formed instructions (30_encoding.md section 3,
10_state.md R24). -/

namespace Sys2Proof.Machine

/-! ## Reports: a class carries its low bits, and spells its word again -/

theorem lowBits_fwdWord (v : BitVec 15) : lowBits (fwdWord v) = v := by
  apply BitVec.eq_of_toNat_eq
  rw [lowBits_toNat, fwdWord_toNat, Nat.mod_eq_of_lt v.isLt]

theorem lowBits_revWord (v : BitVec 15) : lowBits (revWord v) = v := by
  apply BitVec.eq_of_toNat_eq
  rw [lowBits_toNat, revWord_toNat, Nat.add_mod_left, Nat.mod_eq_of_lt v.isLt]

theorem decodeReportWord_fwdWord {v : BitVec 15} (h : v ≠ 0) :
    decodeReportWord (fwdWord v) = .spdFwd v := by
  have hword := fwdWord_toNat v
  have hlo : v.toNat ≠ 0 := fun h0 => h (BitVec.eq_of_toNat_eq h0)
  have hhi := v.isLt
  rw [decodeReportWord_of_positive (by omega) (by omega), lowBits_fwdWord]

theorem decodeReportWord_revWord {v : BitVec 15} (h : v ≠ 0) :
    decodeReportWord (revWord v) = .spdRev v := by
  have hword := revWord_toNat v
  have hlo : v.toNat ≠ 0 := fun h0 => h (BitVec.eq_of_toNat_eq h0)
  rw [decodeReportWord_of_negative (by omega), lowBits_revWord]

theorem decode_bytesOf (w : ReportWord) : decode .report (bytesOf w) = .ok (decodeReportWord w) := by
  rw [bytesOf, decode_two_bytes, wordOf_bytes]

theorem lowBits_ne_zero {w : ReportWord} (h0 : w.toNat ≠ 0x0000) (h8 : w.toNat ≠ 0x8000) :
    lowBits w ≠ 0 := by
  intro hlow
  have hmod : (lowBits w).toNat = 0 := congrArg BitVec.toNat hlow
  rw [lowBits_toNat] at hmod
  have := w.isLt
  omega

/-- The class of a word is a well-formed instruction with that word. -/
theorem decodeReportWord_spells (w : ReportWord) :
    (decodeReportWord w).wellFormed = true ∧ encode (decodeReportWord w) = bytesOf w := by
  by_cases h0 : w.toNat = 0x0000
  case pos =>
    rw [decodeReportWord_of_toNat_eq_zero h0, BitVec.eq_of_toNat_eq (y := 0x0000) h0]
    exact ⟨rfl, rfl⟩
  by_cases h8 : w.toNat = 0x8000
  case pos =>
    rw [decodeReportWord_of_toNat_eq_signBit h8, BitVec.eq_of_toNat_eq (y := 0x8000) h8]
    exact ⟨rfl, rfl⟩
  have hlow := lowBits_ne_zero h0 h8
  rw [decodeReportWord_of_not_exact h0 h8]
  split
  case isTrue hneg => exact ⟨bne_iff_ne.mpr hlow, by rw [encode, revWord_lowBits hneg]⟩
  case isFalse hpos =>
    exact ⟨bne_iff_ne.mpr hlow, by rw [encode, fwdWord_lowBits (Nat.lt_of_not_le hpos)]⟩

/-! ## Channel words -/

theorem channelOfNumber_eq_some {n : Byte} {c : Channel} :
    channelOfNumber n = some c ↔ n = channelNumber c := by
  unfold channelOfNumber
  constructor
  · intro h
    split at h
    · cases h; assumption
    · split at h <;> cases h; assumption
  · rintro rfl
    cases c <;> rfl

theorem decode_channelNumber (v : Byte) (c : Channel) :
    decode .channel [v, channelNumber c] = decodeChannelValue c v := by
  simp only [decode, decodeChannel, channelOfNumber_eq_some.mpr rfl]

theorem dutyByte_msb (p : BitVec 7) : (dutyByte p).msb = true := by
  rw [BitVec.msb_eq_decide, decide_eq_true_iff, dutyByte_toNat]
  exact Nat.le_add_right _ _

theorem percent_dutyByte (p : BitVec 7) : (dutyByte p).extractLsb' 0 7 = p := by
  apply BitVec.eq_of_toNat_eq
  rw [BitVec.extractLsb'_toNat, dutyByte_toNat, Nat.shiftRight_zero]
  have := p.isLt
  omega

theorem dutyByte_percent {v : Byte} (h : v.msb = true) : dutyByte (v.extractLsb' 0 7) = v := by
  apply BitVec.eq_of_toNat_eq
  rw [BitVec.msb_eq_decide, decide_eq_true_iff] at h
  rw [dutyByte_toNat, BitVec.extractLsb'_toNat, Nat.shiftRight_zero]
  have := v.isLt
  omega

theorem dutyByte_ne_off (p : BitVec 7) : dutyByte p ≠ 0x00 := by
  intro h
  have hval : (dutyByte p).toNat = 0 := congrArg BitVec.toNat h
  rw [dutyByte_toNat] at hval
  omega

theorem decodeChannelValue_dutyByte (c : Channel) {p : BitVec 7} (h : p.toNat ≤ Config.dutyMax) :
    decodeChannelValue c (dutyByte p) = .ok (.chDuty c p) := by
  rw [decodeChannelValue, if_neg (dutyByte_ne_off p), dutyByte_msb, percent_dutyByte,
    decide_eq_true h]
  rfl

/-- Everything a channel value can decode to: `OFF`, or a percent within the contract, with the
byte that spells it. -/
theorem decodeChannelValue_ok {c : Channel} {v : Byte} {i : Instr}
    (h : decodeChannelValue c v = .ok i) :
    (i = .chOff c ∧ v = 0x00) ∨
    ∃ p : BitVec 7, i = .chDuty c p ∧ p.toNat ≤ Config.dutyMax ∧ v = dutyByte p := by
  unfold decodeChannelValue at h
  split at h
  case isTrue hoff => exact .inl ⟨(Decoded.ok.inj h).symm, hoff⟩
  case isFalse =>
    split at h
    case isTrue hduty =>
      obtain ⟨hmsb, hmax⟩ := Bool.and_eq_true_iff.mp hduty
      exact .inr ⟨_, (Decoded.ok.inj h).symm, of_decide_eq_true hmax, (dutyByte_percent hmsb).symm⟩
    case isFalse => cases h

/-- What decodes at the channel port has two bytes, a value and a channel's number. -/
theorem decodeChannel_ok {bytes : List Byte} {i : Instr} (h : decode .channel bytes = .ok i) :
    ∃ (v : Byte) (c : Channel), bytes = [v, channelNumber c] ∧ decodeChannelValue c v = .ok i := by
  match bytes with
  | [] => cases h
  | [_] => cases h
  | _ :: _ :: _ :: _ => cases h
  | [v, n] =>
    simp only [decode, decodeChannel] at h
    cases hn : channelOfNumber n with
    | none => rw [hn] at h; cases h
    | some c =>
      rw [hn] at h
      exact ⟨v, c, by rw [channelOfNumber_eq_some.mp hn], h⟩

/-! ## The statements -/

/-- Settles O2: the class of a report's word is the class it was built from, and a channel's byte
and number are read back as they were written. -/
theorem decodeOfEncode : Obligations.DecodeOfEncode := by
  intro i hwf
  cases i with
  | spdStop => exact decode_bytesOf 0x0000
  | spdNegmax => exact decode_bytesOf 0x8000
  | spdFwd v =>
    have hword := decodeReportWord_fwdWord (bne_iff_ne.mp hwf)
    exact (decode_bytesOf _).trans (congrArg _ hword)
  | spdRev v =>
    have hword := decodeReportWord_revWord (bne_iff_ne.mp hwf)
    exact (decode_bytesOf _).trans (congrArg _ hword)
  | chOff c => exact decode_channelNumber 0x00 c
  | chDuty c p =>
    exact (decode_channelNumber _ c).trans (decodeChannelValue_dutyByte c (of_decide_eq_true hwf))

/-- Settles O3: two report bytes are the bytes of their word, which its class spells, and a channel
word is one of the two values with a channel's number. -/
theorem encodeOfDecode : Obligations.EncodeOfDecode := by
  intro port bytes i h
  cases port with
  | report =>
    have hlen : bytes.length = 2 := by
      by_contra hne
      rw [decode_other_length hne] at h
      cases h
    obtain ⟨b0, b1, rfl⟩ := List.length_eq_two.mp hlen
    have hport := decodeReport_port h
    rw [decode_two_bytes] at h
    obtain rfl := Decoded.ok.inj h
    obtain ⟨hwf, hbytes⟩ := decodeReportWord_spells (wordOf b0 b1)
    exact ⟨hwf, hport, hbytes.trans (bytesOf_wordOf b0 b1)⟩
  | channel =>
    obtain ⟨v, c, rfl, hvalue⟩ := decodeChannel_ok h
    obtain ⟨rfl, rfl⟩ | ⟨p, rfl, hmax, rfl⟩ := decodeChannelValue_ok hvalue
    · exact ⟨rfl, rfl, rfl⟩
    · exact ⟨decide_eq_true hmax, rfl, rfl⟩

/-- Settles O1: each word, evaluated. -/
theorem specWordsDecode : Obligations.SpecWordsDecode := by
  unfold Obligations.SpecWordsDecode
  decide

/-- Settles O23: the contract has no percent above 100, and such an instruction is ill-formed, which
no decoded one is. -/
theorem dutyAboveHundredIsRefused : Obligations.DutyAboveHundredIsRefused := by
  intro c p s hp
  refine ⟨?refused, fun bytes h => ?notDecoded⟩
  case refused =>
    have hnone : percentOf p = none := dif_neg (Nat.not_le_of_lt hp)
    change execChDuty c p s = _
    rw [execChDuty, hnone]
  case notDecoded =>
    obtain ⟨hwf, -⟩ := encodeOfDecode .channel bytes _ h
    exact Nat.not_le_of_lt hp (of_decide_eq_true hwf)

/-! ## The byte of a channel value -/

theorem dutyBits_toNat (p : Percent) : (dutyBits p).toNat = p.val := by
  rw [dutyBits, BitVec.toNat_ofNat, Nat.mod_eq_of_lt]
  have hp : p.val < 101 := p.isLt
  omega

theorem chByte_duty_toNat (p : Percent) : (chByte (.duty p)).toNat = 0x80 + p.val := by
  rw [chByte, dutyByte_toNat, dutyBits_toNat]

/-- The instruction that writes a channel value. -/
def writeInstr (c : Channel) : ChVal → Instr
  | .off => .chOff c
  | .duty p => .chDuty c (dutyBits p)

theorem decode_chByte (c : Channel) (v : ChVal) :
    decode .channel [chByte v, channelNumber c] = .ok (writeInstr c v) := by
  rw [decode_channelNumber]
  cases v with
  | off => rfl
  | duty p =>
    have hmax : (dutyBits p).toNat ≤ Config.dutyMax :=
      (dutyBits_toNat p).trans_le (Nat.le_of_lt_succ p.isLt)
    exact decodeChannelValue_dutyByte c hmax

theorem exec_writeInstr (c : Channel) (v : ChVal) (s : State) :
    exec (writeInstr c v) s = .next (s.chWrite c v) := by
  cases v with
  | off => exact exec_chOff c s
  | duty p => exact exec_chDuty c s (dutyBits_toNat p).symm

/-- Settles O48: a value's byte is 0 or 128 plus a percent, and its word is the write of the value. -/
theorem channelByteEncoding : Obligations.ChannelByteEncoding := by
  refine ⟨rfl, rfl, rfl, chByte_duty_toNat,
    fun c v s => ⟨writeInstr c v, decode_chByte c v, exec_writeInstr c v s⟩, fun v => ?neverProduced⟩
  cases v with
  | off => decide
  | duty p =>
    have hbyte := chByte_duty_toNat p
    have hp : p.val < 101 := p.isLt
    omega

end Sys2Proof.Machine
end

section
/-! PROOFS. Operations as their events: what an operation does to channels and trace is the playing of
a list of events, and an accepted speed plays the events of the operation it selects (42_sequencer.md
section 2). -/

namespace Sys2Proof.Machine

open Sys2Proof.Safety

/-! ## Playing events -/

/-- The state after the outward actions `es`: they are appended to the trace, and their writes made. -/
def State.play (s : State) (es : List OutEvent) : State :=
  { s with
    chA := es.foldl replayEvent s.ch .A
    chB := es.foldl replayEvent s.ch .B
    out := s.out ++ es }

@[simp] theorem play_ch (s : State) (es : List OutEvent) :
    (s.play es).ch = es.foldl replayEvent s.ch := by
  funext d; cases d <;> rfl

theorem play_nil (s : State) : s.play [] = s := by
  rw [State.play, List.append_nil]; rfl

theorem play_play (s : State) (es fs : List OutEvent) : (s.play es).play fs = s.play (es ++ fs) := by
  simp only [State.play, List.foldl_append, List.append_assoc]
  rw [← play_ch s es]
  rfl

/-- The channel register a write leaves is the one its event replays to. -/
theorem chWrite_eq_play (s : State) (c : Channel) (v : ChVal) :
    s.chWrite c v = s.play [writeEvent c v] := by
  cases c <;> cases v <;> rfl

theorem setOff_eq_play (s : State) (c : Channel) : s.setOff c = s.play [.off c] :=
  chWrite_eq_play s c .off

theorem setDuty_eq_play (s : State) (c : Channel) (p : Percent) :
    s.setDuty c p = s.play [.duty c p] :=
  chWrite_eq_play s c (.duty p)

/-- A delay writes no channel. -/
theorem emit_delay_eq_play (s : State) (ms : Nat) : s.emit (.delay ms) = s.play [.delay ms] := rfl

theorem stopWrites_eq_play (s : State) : stopWrites s = s.play [.off .A, .off .B] := by
  rw [stopWrites, setOff_eq_play, setOff_eq_play, play_play]; rfl

theorem updateWrites_eq_play (cur : DriveCommand) (s : State) :
    updateWrites cur s = s.play [.off (inactive cur), .duty (active cur) cur.duty] := by
  rw [updateWrites, setOff_eq_play, setDuty_eq_play, play_play]; rfl

theorem kickWrites_eq_play (cur : DriveCommand) (s : State) :
    kickWrites cur s = s.play [.off (inactive cur), .duty (active cur) 100] := by
  rw [kickWrites, setOff_eq_play, setDuty_eq_play, play_play]; rfl

theorem settleWrite_eq_play (cur : DriveCommand) (s : State) :
    settleWrite cur s = s.play [.duty (active cur) cur.duty] :=
  setDuty_eq_play s _ _

theorem beginKick_eq_play (speed : Speed) (cur : DriveCommand) (s : State) :
    beginKick speed cur s =
      { s.play [.off (inactive cur), .duty (active cur) 100, .delay 150] with
        phase := .kick
        kickRem := 150
        tgtSpeed := speed
        tgtDuty := cur.duty
        tgtFwd := cur.forward } := by
  rw [beginKick, State.beginWait, emit_delay_eq_play, kickWrites_eq_play, play_play]; rfl

theorem finishKick_eq_play (s : State) :
    finishKick s =
      { s.play [.duty (active s.tgt) s.tgtDuty] with
        phase := .poll
        lastSpeed := s.tgtSpeed
        lastDuty := s.tgtDuty
        lastFwd := s.tgtFwd } := by
  rw [finishKick, settleWrite_eq_play]; rfl

/-! ## The channels of a command -/

theorem eq_active_or_inactive (c : DriveCommand) (d : Channel) : d = active c ∨ d = inactive c := by
  unfold inactive
  cases active c <;> cases d <;> decide

theorem inactive_ne_active (c : DriveCommand) : inactive c ≠ active c := opp_ne _

/-- A write to the active channel, after one that switched the inactive one off. -/
theorem replay_drive (c : DriveCommand) (p : Percent) (v : Channel → ChVal) (d : Channel) :
    [.off (inactive c), .duty (active c) p].foldl replayEvent v d =
      if d = active c then .duty p else .off := by
  obtain rfl | rfl := eq_active_or_inactive c d
  · simp [replayEvent]
  · simp [replayEvent, inactive_ne_active]

theorem replay_drive_active (c : DriveCommand) (p : Percent) (v : Channel → ChVal) :
    [.off (inactive c), .duty (active c) p].foldl replayEvent v (active c) = .duty p := by
  rw [replay_drive, if_pos rfl]

theorem replay_drive_inactive (c : DriveCommand) (p : Percent) (v : Channel → ChVal) :
    [.off (inactive c), .duty (active c) p].foldl replayEvent v (inactive c) = .off := by
  rw [replay_drive, if_neg (inactive_ne_active c)]

/-! ## The sequencer and the loop, operation by operation -/

/-- The events an operation emits before it commits or waits (42_sequencer.md R84 to R87). -/
def operationEvents (cur : DriveCommand) : Operation → List OutEvent
  | .nop => []
  | .stop => [.off .A, .off .B]
  | .update => [.off (inactive cur), .duty (active cur) cur.duty]
  | .kick => [.off (inactive cur), .duty (active cur) 100, .delay 150]

theorem acceptSpeed_same {s : State} {speed : Speed} (h : speed = s.lastSpeed) :
    acceptSpeed speed s = s := if_pos h

/-- A changed speed that needs no kickstart is committed at once. -/
theorem acceptSpeed_of_not_kick {s : State} {speed : Speed} (hne : speed ≠ s.lastSpeed)
    (hop : classify s.last (mapSpeed speed.toInt) ≠ .kick) :
    acceptSpeed speed s =
      (s.play (operationEvents (mapSpeed speed.toInt)
        (classify s.last (mapSpeed speed.toInt)))).commit speed (mapSpeed speed.toInt) := by
  rw [acceptSpeed, if_neg hne, applyChanged]
  cases h : classify s.last (mapSpeed speed.toInt) with
  | nop => simp only [operationEvents, play_nil]
  | stop => simp only [operationEvents, stopWrites_eq_play]
  | update => simp only [operationEvents, updateWrites_eq_play]
  | kick => exact absurd h hop

/-- A changed speed that needs one begins it. -/
theorem acceptSpeed_of_kick {s : State} {speed : Speed} (hne : speed ≠ s.lastSpeed)
    (hop : classify s.last (mapSpeed speed.toInt) = .kick) :
    acceptSpeed speed s = beginKick speed (mapSpeed speed.toInt) s := by
  rw [acceptSpeed, if_neg hne, applyChanged]
  simp only [hop]

/-- Sequence as one big step plays the events of the operation, and of a kickstart step 3 too. -/
theorem runSequence_of_not_kick {last cur : DriveCommand} (s : State)
    (hop : classify last cur ≠ .kick) :
    runSequence last cur s = s.play (operationEvents cur (classify last cur)) := by
  cases h : classify last cur with
  | nop => rw [runSequence_of_nop s h, operationEvents, play_nil]
  | stop =>
    obtain ⟨hcur, hlast⟩ := (classify_stop_iff last cur).mp h
    rw [runSequence, if_pos hcur, hlast]
    exact stopWrites_eq_play s
  | update =>
    obtain ⟨hcur, -, -⟩ := (classify_update_iff last cur).mp h
    rw [runSequence, hcur, if_neg (mt (classify_kick_iff_needKick last cur).mpr hop)]
    exact updateWrites_eq_play cur s
  | kick => exact absurd h hop

theorem runSequence_of_kick {last cur : DriveCommand} (s : State) (hop : classify last cur = .kick) :
    runSequence last cur s =
      s.play (operationEvents cur .kick ++ [.duty (active cur) cur.duty]) := by
  obtain ⟨hcur, -⟩ := (classify_kick_iff last cur).mp hop
  rw [runSequence, hcur, if_pos ((classify_kick_iff_needKick last cur).mp hop), settleWrite_eq_play,
    emit_delay_eq_play, kickWrites_eq_play, play_play, play_play]
  rfl

/-! ## The operation of a command, by its duty and direction -/

theorem stopped_eq_false {c : DriveCommand} (h : c.duty ≠ 0) : stopped c = false :=
  Bool.eq_false_iff.mpr (mt (stopped_iff_duty_eq_zero c).mp h)

theorem classify_update_of {last cur : DriveCommand} (hcur : cur.duty ≠ 0) (hlast : last.duty ≠ 0)
    (hdir : last.forward = cur.forward) : classify last cur = .update :=
  (classify_update_iff last cur).mpr ⟨stopped_eq_false hcur, stopped_eq_false hlast, hdir⟩

theorem classify_kick_of {last cur : DriveCommand} (hcur : cur.duty ≠ 0)
    (h : last.duty = 0 ∨ last.forward ≠ cur.forward) : classify last cur = .kick :=
  (classify_kick_iff last cur).mpr
    ⟨stopped_eq_false hcur, h.imp_left (stopped_iff_duty_eq_zero last).mpr⟩

/-! ## The statements on the sequencer -/

/-- Settles O13: the rows are the equivalences of the classification, read at duty 0 or not. -/
theorem classificationRows : Obligations.ClassificationRows := by
  intro last cur
  refine ⟨fun hlast hcur => ?nop, fun hlast hcur => ?stop, fun hlast hcur => ?start,
    fun hlast hcur hdir => ?reversal, fun hlast hcur hdir => ?update⟩
  case nop =>
    exact (classify_nop_iff last cur).mpr
      ⟨(stopped_iff_duty_eq_zero cur).mpr hcur, (stopped_iff_duty_eq_zero last).mpr hlast⟩
  case stop =>
    exact (classify_stop_iff last cur).mpr
      ⟨(stopped_iff_duty_eq_zero cur).mpr hcur, stopped_eq_false (Fin.pos_iff_ne_zero.mp hlast)⟩
  case start => exact classify_kick_of (Fin.pos_iff_ne_zero.mp hcur) (.inl hlast)
  case reversal => exact classify_kick_of (Fin.pos_iff_ne_zero.mp hcur) (.inr hdir)
  case update =>
    exact classify_update_of (Fin.pos_iff_ne_zero.mp hcur) (Fin.pos_iff_ne_zero.mp hlast) hdir

/-- Settles O16: each operation plays its events, and its channels are those of the direction. -/
theorem operationTraces : Obligations.OperationTraces := by
  intro last cur s
  have hkick (hop : classify last cur = .kick) := runSequence_of_kick s hop
  have hupdate (hop : classify last cur = .update) : runSequence last cur s = _ :=
    runSequence_of_not_kick s (by rw [hop]; nofun)
  refine ⟨fun hop => ?stop, fun hop hdir => ?kickForward, fun hop hdir => ?kickReverse,
    fun hop hdir => ?updateForward, fun hop hdir => ?updateReverse⟩
  case stop =>
    rw [runSequence_of_not_kick s (by rw [hop]; nofun), hop]
    exact ⟨rfl, fun d => by cases d <;> rfl⟩
  case kickForward =>
    rw [hkick hop, operationEvents, inactive_forward hdir, active_forward hdir]
    exact ⟨rfl, rfl, rfl⟩
  case kickReverse =>
    rw [hkick hop, operationEvents, inactive_reverse hdir, active_reverse hdir]
    exact ⟨rfl, rfl, rfl⟩
  case updateForward =>
    rw [hupdate hop, hop, operationEvents, inactive_forward hdir, active_forward hdir]
    exact ⟨rfl, rfl, rfl⟩
  case updateReverse =>
    rw [hupdate hop, hop, operationEvents, inactive_reverse hdir, active_reverse hdir]
    exact ⟨rfl, rfl, rfl⟩

end Sys2Proof.Machine
end

section
/-! PROOFS. The invariant of 10_state.md R23 is kept by every step, whatever the environment does. -/

namespace Sys2Proof.Machine

open Sys2Proof.Safety

/-! ## What every event keeps, every step keeps -/

/-- Reports carry speeds of the domain only, so a poll needs no other (10_state.md R10). -/
theorem pollEvent_keeps {P : State → Prop}
    (haccept : ∀ s speed, speed ≠ 0x8000 → s.phase = .poll → P s → P (acceptSpeed speed s))
    {s t : State} {r : Option (List Byte)} (hs : P s) (h : pollEvent r s = .next t) : P t := by
  obtain ⟨hphase, ⟨-, rfl⟩ | ⟨buf, speed, -, hspeed, rfl⟩⟩ := pollEvent_next h
  · exact hs
  · exact haccept s speed (decodeSpeed_ne hspeed) hphase hs

/-- The induction step of every invariant: with nothing at the channel port, a step takes a turn and
perhaps an answer, and makes one event. -/
theorem step_keeps {P : State → Prop} (hturn : ∀ s, P s → P s.takeTurn.2)
    (hanswer : ∀ s, P s → P s.takeAnswer.2) (hreset : ∀ s, P s → P s.resetBlock)
    (htick : ∀ s, P s → P (tickEvent s))
    (haccept : ∀ s speed, speed ≠ 0x8000 → s.phase = .poll → P s → P (acceptSpeed speed s))
    {s t : State} (hport : s.chPort = none) (hs : P s) (h : step s = .next t) : P t := by
  obtain ⟨-, rfl⟩ | ⟨-, rfl⟩ | ⟨-, -, rfl⟩ | ⟨-, -, hpoll⟩ := step_cases hport h
  case inl => exact htick _ (hturn s hs)
  case inr.inl => exact hreset _ (hturn s hs)
  case inr.inr.inl => exact hturn s hs
  case inr.inr.inr => exact pollEvent_keeps haccept (hanswer _ (hturn s hs)) hpoll

/-! ## Taking a turn or an answer keeps the invariant -/

/-- The state with another schedule and another count of free values. -/
def State.withEnvironment (s : State) (turns : List Turn) (answers : List (Option (List Byte)))
    (freeIx : Nat) : State :=
  { s with turns := turns, answers := answers, freeIx := freeIx }

theorem takeTurn_environment (s : State) :
    ∃ ts n, s.takeTurn.2 = s.withEnvironment ts s.answers n := by
  unfold State.takeTurn
  split
  · exact ⟨_, _, rfl⟩
  · exact ⟨s.turns, _, rfl⟩

theorem takeAnswer_environment (s : State) :
    ∃ rs n, s.takeAnswer.2 = s.withEnvironment s.turns rs n := by
  unfold State.takeAnswer
  split
  · exact ⟨_, _, rfl⟩
  · exact ⟨s.answers, _, rfl⟩

/-- The invariant reads nothing of the environment's side but the port. -/
theorem inv_withEnvironment {s : State} (hs : Inv s) (ts : List Turn)
    (rs : List (Option (List Byte))) (n : Nat) : Inv (s.withEnvironment ts rs n) where
  last := hs.last
  steady := hs.steady
  kicking := hs.kicking
  port := hs.port

theorem inv_takeTurn (s : State) (hs : Inv s) : Inv s.takeTurn.2 := by
  obtain ⟨ts, n, e⟩ := takeTurn_environment s
  rw [e]
  exact inv_withEnvironment hs ts _ n

theorem inv_takeAnswer (s : State) (hs : Inv s) : Inv s.takeAnswer.2 := by
  obtain ⟨rs, n, e⟩ := takeAnswer_environment s
  rw [e]
  exact inv_withEnvironment hs _ rs n

/-! ## The channels of an applied command -/

theorem steadyDrive_of_stopped {c : DriveCommand} (h : stopped c = true) (d : Channel) :
    steadyDrive c d = .off := by
  rw [steadyDrive, driving_eq, h]; rfl

theorem steadyDrive_of_driving {c : DriveCommand} (h : stopped c = false) (d : Channel) :
    steadyDrive c d = if d = active c then .duty c.duty else .off := by
  simp [steadyDrive, driving_eq, h]

/-- A driving command is of at least the floor, and so not stopped. -/
theorem stopped_of_floor {c : DriveCommand} (h : Config.minDuty ≤ c.duty.val) : stopped c = false := by
  rw [← Bool.not_eq_true, stopped_iff]
  have : 40 ≤ c.duty.val := h
  omega

/-! ## Every event keeps the invariant -/

theorem inv_reset : Inv State.reset where
  last := ⟨by decide, by decide⟩
  steady _ := ⟨rfl, fun d => by cases d <;> rfl⟩
  kicking h := nomatch h
  port := rfl

theorem inv_resetBlock (s : State) (hs : Inv s) : Inv s.resetBlock where
  last := inv_reset.last
  steady := inv_reset.steady
  kicking := inv_reset.kicking
  port := hs.port

/-- An operation that does not wait ends in phase `POLL` with the command applied. -/
theorem inv_play_commit {s : State} {speed : Speed} {es : List OutEvent} (hs : Inv s)
    (hphase : s.phase = .poll) (hne : speed ≠ 0x8000)
    (hch : ∀ d, es.foldl replayEvent s.ch d = steadyDrive (mapSpeed speed.toInt) d) :
    Inv ((s.play es).commit speed (mapSpeed speed.toInt)) where
  last := ⟨hne, rfl⟩
  steady _ := ⟨(hs.steady hphase).1, fun d => by rw [commit_ch, play_ch]; exact hch d⟩
  kicking h := nomatch hphase.symm.trans h
  port := hs.port

theorem inv_beginKick {s : State} {speed : Speed} (hs : Inv s) (hne : speed ≠ 0x8000)
    (hdriving : stopped (mapSpeed speed.toInt) = false) :
    Inv (beginKick speed (mapSpeed speed.toInt) s) := by
  obtain ⟨hlo, hhi⟩ : 1 ≤ (150 : BitVec 8).toNat ∧ (150 : BitVec 8).toNat ≤ Config.kickMs := by decide
  rw [beginKick_eq_play]
  exact {
    last := hs.last
    steady := nofun
    kicking := fun _ => ⟨hlo, hhi,
      (congrFun (play_ch s _) _).trans (replay_drive_active _ 100 s.ch),
      (congrFun (play_ch s _) _).trans (replay_drive_inactive _ 100 s.ch),
      mapSpeed_floor hdriving, hne, rfl⟩
    port := hs.port }

theorem inv_acceptSpeed (s : State) (speed : Speed) (hne : speed ≠ 0x8000)
    (hphase : s.phase = .poll) (hs : Inv s) : Inv (acceptSpeed speed s) := by
  by_cases hsame : speed = s.lastSpeed
  case pos => rwa [acceptSpeed_same hsame]
  cases hop : classify s.last (mapSpeed speed.toInt) with
  | nop => exact absurd (eq_lastSpeed_of_nop hs.last hop) hsame
  | stop =>
    obtain ⟨hstop, -⟩ := (classify_stop_iff _ _).mp hop
    rw [acceptSpeed_of_not_kick hsame (by rw [hop]; nofun), hop]
    refine inv_play_commit hs hphase hne fun d => ?_
    rw [steadyDrive_of_stopped hstop]
    cases d <;> rfl
  | update =>
    obtain ⟨hdriving, -, -⟩ := (classify_update_iff _ _).mp hop
    rw [acceptSpeed_of_not_kick hsame (by rw [hop]; nofun), hop]
    refine inv_play_commit hs hphase hne fun d => ?_
    rw [steadyDrive_of_driving hdriving]
    exact replay_drive _ _ s.ch d
  | kick =>
    obtain ⟨hdriving, -⟩ := (classify_kick_iff _ _).mp hop
    rw [acceptSpeed_of_kick hsame hop]
    exact inv_beginKick hs hne hdriving

theorem inv_count {s : State} (hs : Inv s) (hphase : s.phase = .kick) (hrem : s.kickRem ≠ 1) :
    Inv { s with kickRem := s.kickRem - 1 } where
  last := hs.last
  steady h := nomatch hphase.symm.trans h
  kicking _ := by
    obtain ⟨hlo, hhi, hrest⟩ := hs.kicking hphase
    have hhi' : s.kickRem.toNat ≤ 150 := hhi
    refine ⟨?_, ?_, hrest⟩
    · show 1 ≤ (s.kickRem - 1).toNat
      bv_omega
    · show (s.kickRem - 1).toNat ≤ 150
      bv_omega
  port := hs.port

/-- Step 3 leaves the active channel at the target duty, and the pulse had left the other off. -/
theorem inv_finishKick {s : State} (hs : Inv s) (hphase : s.phase = .kick) :
    Inv (finishKick { s with kickRem := 0 }) := by
  obtain ⟨-, -, -, hinactive, hfloor, hne, hmap⟩ := hs.kicking hphase
  have hdrive (d : Channel) :
      (s.play [.duty (active s.tgt) s.tgtDuty]).ch d = steadyDrive s.tgt d := by
    rw [play_ch, steadyDrive_of_driving (stopped_of_floor hfloor)]
    obtain rfl | rfl := eq_active_or_inactive s.tgt d
    · simp [replayEvent]
    · simp [replayEvent, inactive_ne_active, hinactive]
  rw [finishKick_eq_play]
  exact {
    last := ⟨hne, hmap⟩
    steady := fun _ => ⟨rfl, hdrive⟩
    kicking := nofun
    port := hs.port }

theorem inv_tickEvent (s : State) (hs : Inv s) : Inv (tickEvent s) := by
  obtain ⟨-, e⟩ | ⟨hphase, hrem, e⟩ | ⟨hphase, -, e⟩ := tickEvent_cases s
  · rwa [e]
  · rw [e]
    exact inv_count hs hphase hrem
  · rw [e]
    exact inv_finishKick hs hphase

/-! ## What the invariant says of the channels -/

/-- The command the channels carry: the last one, and in phase `KICK` the pulse. -/
def driveOf (s : State) : DriveCommand :=
  match s.phase with
  | .poll => s.last
  | .kick => ⟨kickPercent, s.tgtFwd⟩

theorem driveOf_poll {s : State} (h : s.phase = .poll) : driveOf s = s.last := by
  rw [driveOf, h]

theorem driveOf_kick {s : State} (h : s.phase = .kick) : driveOf s = ⟨100, s.tgtFwd⟩ := by
  rw [driveOf, h]; rfl

theorem inv_ch {s : State} (hs : Inv s) (d : Channel) : s.ch d = steadyDrive (driveOf s) d := by
  cases hphase : s.phase with
  | poll =>
    obtain ⟨-, hdrive⟩ := hs.steady hphase
    rw [driveOf_poll hphase, hdrive]
  | kick =>
    obtain ⟨-, -, hactive, hinactive, -⟩ := hs.kicking hphase
    have hdriving : stopped ⟨100, s.tgtFwd⟩ = false := rfl
    rw [driveOf_kick hphase, steadyDrive_of_driving hdriving]
    obtain rfl | rfl := eq_active_or_inactive s.tgt d
    · exact hactive.trans (if_pos rfl).symm
    · exact hinactive.trans (if_neg (inactive_ne_active s.tgt)).symm

theorem last_duty_bounds {s : State} (h : LastIsMapped s) : s.lastDuty = 0 ∨ 40 ≤ s.lastDuty.val := by
  obtain ⟨-, hmap⟩ := h
  have hduty : s.lastDuty = (mapSpeed s.lastSpeed.toInt).duty := congrArg DriveCommand.duty hmap
  rw [hduty]
  cases hstop : stopped (mapSpeed s.lastSpeed.toInt) with
  | true => exact .inl ((stopped_iff_duty_eq_zero _).mp hstop)
  | false => exact .inr (mapSpeed_floor hstop)

/-- A channel is driven only at the duty of the command it carries. -/
theorem eq_duty_of_steadyDrive {c : DriveCommand} {d : Channel} {p : Percent}
    (h : steadyDrive c d = .duty p) : driving c = true ∧ d = active c ∧ p = c.duty := by
  unfold steadyDrive at h
  split at h
  case isTrue hactive =>
    obtain ⟨hdriving, hd⟩ := Bool.and_eq_true_iff.mp hactive
    exact ⟨hdriving, of_decide_eq_true hd, (ChVal.duty.inj h).symm⟩
  case isFalse => cases h

/-! ## The statements -/

/-- Settles O40: both channels off are those of speed 0, and where an empty trace leaves its reader. -/
theorem resetMeetsTheInvariant : Obligations.ResetMeetsTheInvariant := ⟨inv_reset, rfl⟩

/-- Settles O41: each event keeps the invariant, and so does the taking of a turn or an answer. -/
theorem stepKeepsTheInvariant : Obligations.StepKeepsTheInvariant :=
  fun _ _ hs => step_keeps inv_takeTurn inv_takeAnswer inv_resetBlock inv_tickEvent inv_acceptSpeed
    hs.port hs

/-- Settles O42: the channels carry one command, the last one or the pulse, and its duty is 0 or at
least the floor. -/
theorem invariantBoundsDutiesAndChannels : Obligations.InvariantBoundsDutiesAndChannels := by
  intro s hs
  refine ⟨last_duty_bounds hs.last, fun c p hp => ?floor, ?oneDriven⟩
  case floor =>
    rw [inv_ch hs] at hp
    obtain ⟨hdriving, -, rfl⟩ := eq_duty_of_steadyDrive hp
    cases hphase : s.phase with
    | poll =>
      rw [driveOf_poll hphase, driving_iff] at hdriving
      rw [driveOf_poll hphase]
      refine (last_duty_bounds hs.last).resolve_left fun hzero => ?_
      rw [last_duty, hzero] at hdriving
      exact Nat.lt_irrefl 0 hdriving
    | kick =>
      rw [driveOf_kick hphase]
      exact (by decide : 40 ≤ (100 : Percent).val)
  case oneDriven =>
    rw [OneDriven, inv_ch hs, inv_ch hs]
    cases hdir : (driveOf s).forward with
    | true => exact .inr (by simp [steadyDrive, active_forward hdir])
    | false => exact .inl (by simp [steadyDrive, active_reverse hdir])

end Sys2Proof.Machine
end

section
/-! PROOFS. The derived EN, DIR, PCT view (44_direction_output.md R119) under the invariant. -/

namespace Sys2Proof.Machine

open Sys2Proof.Safety

theorem driving_iff_duty_ne_zero (c : DriveCommand) : driving c = true ↔ c.duty ≠ 0 := by
  rw [driving, decide_eq_true_iff, Fin.pos_iff_ne_zero]

/-! ## The view of a command's channels -/

section
variable {s : State} {c : DriveCommand} (hch : ∀ d, s.ch d = steadyDrive c d)
include hch

theorem chA_of_drive : s.chA = if driving c && c.forward then .duty c.duty else .off := by
  rw [← ch_A, hch, steadyDrive]
  cases h : c.forward <;> simp [active, h]

theorem chB_of_drive : s.chB = if driving c && !c.forward then .duty c.duty else .off := by
  rw [← ch_B, hch, steadyDrive]
  cases h : c.forward <;> simp [active, h]

theorem enView_of_drive : enView s = driving c := by
  rw [enView, chA_of_drive hch, chB_of_drive hch]
  cases driving c <;> cases c.forward <;> rfl

theorem dirView_of_drive : dirView s = if driving c then some c.forward else none := by
  rw [dirView, chA_of_drive hch, chB_of_drive hch]
  cases driving c <;> cases c.forward <;> rfl

theorem pctView_of_drive : pctView s = if driving c then some c.duty else none := by
  rw [pctView, chA_of_drive hch, chB_of_drive hch]
  cases driving c <;> cases c.forward <;> rfl

end

/-! ## The statement -/

/-- Settles O50: the channels carry one command, the last one or the pulse, and the view reads its
direction and duty back exactly where it drives. -/
theorem derivedViewIsWellDefined : Obligations.DerivedViewIsWellDefined := by
  intro s hs
  have hch := inv_ch hs
  rw [enView_of_drive hch, dirView_of_drive hch, pctView_of_drive hch]
  refine ⟨?dirMeant, ?pctMeant, fun hphase => ?poll, fun hphase => ?kick⟩
  case dirMeant => cases driving (driveOf s) <;> simp
  case pctMeant => cases driving (driveOf s) <;> simp
  case poll =>
    have hdriving := driving_iff_duty_ne_zero s.last
    rw [driveOf_poll hphase]
    exact ⟨hdriving, fun hne => by rw [hdriving.mpr hne]; exact ⟨rfl, rfl⟩⟩
  case kick =>
    rw [driveOf_kick hphase]
    exact ⟨rfl, rfl⟩

end Sys2Proof.Machine
end

section
/-! PROOFS. The trace discipline (44_direction_output.md R117, R118; 20_memory.md R40) is kept by every
step, and gives one driven channel at every point of the trace. -/

namespace Sys2Proof.Machine

open Sys2Proof.Safety

/-! ## Reading on -/

theorem readTrace_append (out es : List OutEvent) :
    readTrace (out ++ es) = es.foldl Reader.next (readTrace out) :=
  List.foldl_append

theorem traceInv_poll {s : State} (h : s.phase = .poll) :
    TraceInv s ↔ readTrace s.out = .steady s.chA s.chB := by
  rw [TraceInv, h]

theorem traceInv_kick {s : State} (h : s.phase = .kick) :
    TraceInv s ↔ readTrace s.out = .waiting (active s.tgt) s.chA s.chB := by
  rw [TraceInv, h]

/-! ## The reader on the events of an operation -/

/-- `T.STOP` switches off two channels, whatever they held. -/
theorem read_stop (a b : ChVal) :
    [.off .A, .off .B].foldl Reader.next (.steady a b) = .steady .off .off := by
  simp [Reader.next, writeOne]

/-- `T.UPDATE` gives a channel that is driving another duty. -/
theorem read_update_forward {a : ChVal} (h : a ≠ .off) (b : ChVal) (p : Percent) :
    [.off .B, .duty .A p].foldl Reader.next (.steady a b) = .steady (.duty p) .off := by
  simp [Reader.next, writeOne, h]

theorem read_update_reverse {b : ChVal} (h : b ≠ .off) (a : ChVal) (p : Percent) :
    [.off .A, .duty .B p].foldl Reader.next (.steady a b) = .steady .off (.duty p) := by
  simp [Reader.next, writeOne, h]

/-- `T.KICK` raises a channel that was off to 100, with the other off too, and waits. -/
theorem read_kick_forward (b : ChVal) :
    [.off .B, .duty .A 100, .delay 150].foldl Reader.next (.steady .off b) =
      .waiting .A (.duty 100) .off := by
  simp [Reader.next, writeOne]

theorem read_kick_reverse (a : ChVal) :
    [.off .A, .duty .B 100, .delay 150].foldl Reader.next (.steady a .off) =
      .waiting .B .off (.duty 100) := by
  simp [Reader.next, writeOne]

/-- Step 3 ends the wait, on the channel it was on. -/
theorem read_settle_forward (a : ChVal) (p : Percent) :
    (Reader.waiting .A a .off).next (.duty .A p) = .steady (.duty p) .off := by
  simp [Reader.next, writeOne]

theorem read_settle_reverse (b : ChVal) (p : Percent) :
    (Reader.waiting .B .off b).next (.duty .B p) = .steady .off (.duty p) := by
  simp [Reader.next, writeOne]

/-! ## Every event keeps the trace disciplined -/

theorem traceInv_play_commit {s : State} {es : List OutEvent} (hphase : s.phase = .poll)
    (speed : Speed) (cur : DriveCommand)
    (h : es.foldl Reader.next (readTrace s.out) =
      .steady (es.foldl replayEvent s.ch .A) (es.foldl replayEvent s.ch .B)) :
    TraceInv ((s.play es).commit speed cur) :=
  (traceInv_poll (s := (s.play es).commit speed cur) hphase).mpr
    ((readTrace_append s.out es).trans h)

/-- Without a kickstart the driven channel was the active one already. -/
theorem active_ne_off_of_update {s : State} {cur : DriveCommand} (hs : Steady s)
    (hop : classify s.last cur = .update) : s.ch (active cur) ≠ .off := by
  obtain ⟨-, hlast, hdir⟩ := (classify_update_iff _ _).mp hop
  obtain ⟨-, hdrive⟩ := hs
  have hactive : active cur = active s.last := by rw [active, active, hdir]
  rw [hactive, hdrive, steadyDrive_of_driving hlast, if_pos rfl]
  nofun

/-- A kickstart is of a channel that was off: from a stop, or by a reversal. -/
theorem active_off_of_kick {s : State} {cur : DriveCommand} (hs : Steady s)
    (hop : classify s.last cur = .kick) : s.ch (active cur) = .off := by
  obtain ⟨-, hdrive⟩ := hs
  obtain ⟨-, hstop | hdir⟩ := (classify_kick_iff _ _).mp hop
  · rw [hdrive, steadyDrive_of_stopped hstop]
  · have hactive : active cur ≠ active s.last := by
      revert hdir
      unfold active
      cases s.last.forward <;> cases cur.forward <;> decide
    rw [hdrive, steadyDrive, decide_eq_false hactive, Bool.and_false]
    rfl

theorem traceInv_acceptSpeed {s : State} {speed : Speed} (hphase : s.phase = .poll) (hs : Inv s)
    (htrace : TraceInv s) : TraceInv (acceptSpeed speed s) := by
  have hread := (traceInv_poll hphase).mp htrace
  have hsteady := hs.steady hphase
  by_cases hsame : speed = s.lastSpeed
  case pos => rwa [acceptSpeed_same hsame]
  cases hop : classify s.last (mapSpeed speed.toInt) with
  | nop => exact absurd (eq_lastSpeed_of_nop hs.last hop) hsame
  | stop =>
    rw [acceptSpeed_of_not_kick hsame (by rw [hop]; nofun), hop]
    refine traceInv_play_commit hphase speed _ ?_
    rw [hread]
    exact read_stop s.chA s.chB
  | update =>
    have hon := active_ne_off_of_update hsteady hop
    rw [acceptSpeed_of_not_kick hsame (by rw [hop]; nofun), hop]
    refine traceInv_play_commit hphase speed _ ?_
    rw [hread, operationEvents]
    cases hdir : (mapSpeed speed.toInt).forward with
    | true =>
      rw [active_forward hdir] at hon
      rw [inactive_forward hdir, active_forward hdir]
      exact read_update_forward hon _ _
    | false =>
      rw [active_reverse hdir] at hon
      rw [inactive_reverse hdir, active_reverse hdir]
      exact read_update_reverse hon _ _
  | kick =>
    have hoff := active_off_of_kick hsteady hop
    rw [acceptSpeed_of_kick hsame hop, beginKick_eq_play]
    refine (traceInv_kick rfl).mpr ((readTrace_append s.out _).trans ?_)
    rw [hread]
    change _ = Reader.waiting (active (mapSpeed speed.toInt)) _ _
    cases hdir : (mapSpeed speed.toInt).forward with
    | true =>
      rw [active_forward hdir, ch_A] at hoff
      rw [inactive_forward hdir, active_forward hdir, hoff]
      exact read_kick_forward s.chB
    | false =>
      rw [active_reverse hdir, ch_B] at hoff
      rw [inactive_reverse hdir, active_reverse hdir, hoff]
      exact read_kick_reverse s.chA

theorem traceInv_finishKick {s : State} (hphase : s.phase = .kick) (hs : Inv s)
    (htrace : TraceInv s) : TraceInv (finishKick { s with kickRem := 0 }) := by
  have hread := (traceInv_kick hphase).mp htrace
  obtain ⟨-, -, -, hinactive, -⟩ := hs.kicking hphase
  rw [finishKick_eq_play]
  refine (traceInv_poll rfl).mpr ((readTrace_append s.out _).trans ?_)
  rw [hread]
  change (Reader.waiting (active s.tgt) s.chA s.chB).next (.duty (active s.tgt) s.tgtDuty) =
    .steady (replayEvent s.ch (.duty (active s.tgt) s.tgtDuty) .A)
      (replayEvent s.ch (.duty (active s.tgt) s.tgtDuty) .B)
  cases hdir : s.tgt.forward with
  | true =>
    rw [inactive_forward hdir, ch_B] at hinactive
    rw [active_forward hdir, hinactive, read_settle_forward]
    simp [replayEvent, hinactive]
  | false =>
    rw [inactive_reverse hdir, ch_A] at hinactive
    rw [active_reverse hdir, hinactive, read_settle_reverse]
    simp [replayEvent, hinactive]

theorem traceInv_tickEvent {s : State} (hs : Inv s) (htrace : TraceInv s) :
    TraceInv (tickEvent s) := by
  obtain ⟨-, e⟩ | ⟨-, -, e⟩ | ⟨hphase, -, e⟩ := tickEvent_cases s
  · rwa [e]
  · rw [e]
    exact htrace
  · rw [e]
    exact traceInv_finishKick hphase hs htrace

/-- The invariant and the discipline, which are kept together. -/
def Disciplined (s : State) : Prop := Inv s ∧ TraceInv s

theorem disciplined_takeTurn (s : State) : Disciplined s → Disciplined s.takeTurn.2 := by
  rintro ⟨hs, htrace⟩
  refine ⟨inv_takeTurn s hs, ?_⟩
  obtain ⟨ts, n, e⟩ := takeTurn_environment s
  rw [e]
  exact htrace

theorem disciplined_takeAnswer (s : State) : Disciplined s → Disciplined s.takeAnswer.2 := by
  rintro ⟨hs, htrace⟩
  refine ⟨inv_takeAnswer s hs, ?_⟩
  obtain ⟨rs, n, e⟩ := takeAnswer_environment s
  rw [e]
  exact htrace

/-! ## The discipline along the trace -/

/-- The channel values a reader has, unless it is broken. -/
def readerValues : Reader → Option (ChVal × ChVal)
  | .steady a b => some (a, b)
  | .raised _ a b => some (a, b)
  | .waiting _ a b => some (a, b)
  | .broken => none

/-- Whichever way a raise is judged, a reader that is not broken by it has the values written. -/
theorem readerValues_raise {wasOff full : Prop} [Decidable wasOff] [Decidable full] {c : Channel}
    {a b : ChVal} {w : ChVal × ChVal}
    (h : readerValues (if wasOff then if full then .raised c a b else .broken else .steady a b) =
      some w) : some (a, b) = some w := by
  split at h
  · split at h
    · exact h
    · cases h
  · exact h

/-- An event that does not break a reader is a delay, which keeps its values, or a write that leaves
one channel driven at most. -/
theorem readerValues_next {r : Reader} {e : OutEvent} {w : ChVal × ChVal}
    (h : readerValues (r.next e) = some w) :
    ∃ a b, readerValues r = some (a, b) ∧
      ((∃ ms, e = .delay ms ∧ w = (a, b)) ∨
        ∃ c v, e = writeEvent c v ∧ writeOne a b c v = some w) := by
  unfold Reader.next at h
  split at h
  case h_1 a b c =>
    refine ⟨a, b, rfl, .inr ⟨c, .off, rfl, ?_⟩⟩
    split at h
    case h_1 hw => rw [hw]; exact h
    case h_2 => cases h
  case h_2 a b c p =>
    refine ⟨a, b, rfl, .inr ⟨c, .duty p, rfl, ?_⟩⟩
    split at h
    case h_1 hw =>
      rw [hw]
      exact readerValues_raise h
    case h_2 => cases h
  case h_3 c a b ms =>
    refine ⟨a, b, rfl, .inl ⟨ms, rfl, ?_⟩⟩
    split at h <;> cases h
    rfl
  case h_4 c a b d p =>
    refine ⟨a, b, rfl, .inr ⟨d, .duty p, rfl, ?_⟩⟩
    split at h
    case isTrue hd =>
      split at h
      case h_1 hw => rw [hd, hw]; exact h
      case h_2 => cases h
    case isFalse => cases h
  case h_5 => cases h

/-- The reader has the channel values `v`, one driven at most, unless it is broken. -/
def Tracks (v : Channel → ChVal) (r : Reader) : Prop :=
  ∀ a b, readerValues r = some (a, b) → v .A = a ∧ v .B = b ∧ OneDriven v

/-- A write that `writeOne` admits replays to its values. -/
theorem replayEvent_of_writeOne {v : Channel → ChVal} {c : Channel} {x a b : ChVal}
    (h : writeOne (v .A) (v .B) c x = some (a, b)) :
    replayEvent v (writeEvent c x) .A = a ∧ replayEvent v (writeEvent c x) .B = b ∧
      OneDriven (replayEvent v (writeEvent c x)) := by
  unfold writeOne at h
  cases c with
  | A =>
    obtain ⟨hone, hw⟩ := Option.ite_none_right_eq_some.mp h
    cases hw
    cases x <;> exact ⟨rfl, rfl, hone⟩
  | B =>
    obtain ⟨hone, hw⟩ := Option.ite_none_right_eq_some.mp h
    cases hw
    cases x <;> exact ⟨rfl, rfl, hone.symm⟩

theorem tracks_next {v : Channel → ChVal} {r : Reader} (h : Tracks v r) (e : OutEvent) :
    Tracks (replayEvent v e) (r.next e) := by
  intro a' b' hnext
  obtain ⟨a, b, hr, ⟨ms, rfl, hw⟩ | ⟨c, x, rfl, hw⟩⟩ := readerValues_next hnext
  · cases hw
    exact h a' b' hr
  · obtain ⟨rfl, rfl, -⟩ := h a b hr
    exact replayEvent_of_writeOne hw

theorem tracks_foldl (es : List OutEvent) :
    ∀ {v : Channel → ChVal} {r : Reader}, Tracks v r →
      Tracks (es.foldl replayEvent v) (es.foldl Reader.next r) := by
  induction es with
  | nil => exact id
  | cons e es ih => exact fun h => ih (tracks_next h e)

theorem tracks_readTrace (out : List OutEvent) : Tracks (replay out) (readTrace out) := by
  have hstart : Tracks (fun _ => .off) (.steady .off .off) := by
    intro a b h
    cases h
    exact ⟨rfl, rfl, .inl rfl⟩
  exact tracks_foldl out hstart

/-- Once broken, a reader stays broken, so a reader that is not broken never was. -/
theorem readTrace_take_ne_broken {out : List OutEvent} (h : readTrace out ≠ .broken) (n : Nat) :
    readTrace (out.take n) ≠ .broken := by
  have hstays (es : List OutEvent) : es.foldl Reader.next .broken = .broken := by
    induction es with
    | nil => rfl
    | cons e es ih => exact ih
  intro hbroken
  apply h
  rw [← List.take_append_drop n out, readTrace_append, hbroken, hstays]

theorem oneDriven_replay {out : List OutEvent} (h : readTrace out ≠ .broken) :
    OneDriven (replay out) := by
  have htracks := tracks_readTrace out
  cases hr : readTrace out with
  | steady a b => rw [hr] at htracks; exact (htracks a b rfl).2.2
  | raised c a b => rw [hr] at htracks; exact (htracks a b rfl).2.2
  | waiting c a b => rw [hr] at htracks; exact (htracks a b rfl).2.2
  | broken => exact absurd hr h

theorem readerValues_of_traceInv {s : State} (h : TraceInv s) :
    readerValues (readTrace s.out) = some (s.chA, s.chB) := by
  cases hphase : s.phase with
  | poll => rw [(traceInv_poll hphase).mp h]; rfl
  | kick => rw [(traceInv_kick hphase).mp h]; rfl

/-! ## The statements -/

/-- Settles O43: under the invariant each event reads on without breaking the reader, and it stands
where the phase and the channels stand. -/
theorem stepKeepsTheTraceDisciplined : Obligations.StepKeepsTheTraceDisciplined := by
  intro s t hs htrace h
  have hkept : Disciplined t := by
    refine step_keeps disciplined_takeTurn disciplined_takeAnswer ?reset ?tick ?accept hs.port
      ⟨hs, htrace⟩ h
    case reset => exact fun u ⟨hu, _⟩ => ⟨inv_resetBlock u hu, rfl⟩
    case tick => exact fun u ⟨hu, htr⟩ => ⟨inv_tickEvent u hu, traceInv_tickEvent hu htr⟩
    case accept =>
      exact fun u speed hne hphase ⟨hu, htr⟩ =>
        ⟨inv_acceptSpeed u speed hne hphase hu, traceInv_acceptSpeed hphase hu htr⟩
  exact hkept.2

/-- Settles O44: the reader's values are those of the replayed trace, one driven at most, and a
disciplined trace has no broken part. -/
theorem neverBothDrivenBetweenWrites : Obligations.NeverBothDrivenBetweenWrites := by
  intro s h
  have hvalues := readerValues_of_traceInv h
  refine ⟨fun n => ?oneDriven, ?replayed⟩
  case oneDriven =>
    apply oneDriven_replay
    apply readTrace_take_ne_broken
    intro hbroken
    rw [hbroken] at hvalues
    cases hvalues
  case replayed =>
    obtain ⟨hA, hB, -⟩ := tracks_readTrace s.out _ _ hvalues
    funext d
    cases d
    · exact hA
    · exact hB

end Sys2Proof.Machine
end

section
/-! PROOFS. Speeds on the wire and duties over the integers (40_decoder.md R66; 41_mapper.md sections 2
and 3). -/

namespace Sys2Proof.Machine

/-! ## The statements on speeds -/

/-- Settles O6: the two bytes are those of the word `n mod 65536`, which reads as `n`. -/
theorem speedRoundTrip : Obligations.SpeedRoundTrip := by
  refine ⟨fun n hlo hhi => ?roundTrip, ⟨-32767, by decide, by decide⟩, by decide, by decide⟩
  obtain ⟨-, htwoBytes, -⟩ := decodeIsLittleEndianSaturating
  have hword : (n % 65536).toNat = (BitVec.ofNat 8 ((n % 65536) % 256).toNat).toNat +
      256 * (BitVec.ofNat 8 ((n % 65536) / 256).toNat).toNat := by
    rw [BitVec.toNat_ofNat, BitVec.toNat_ofNat]
    omega
  obtain ⟨speed, hdecode, hspeed⟩ := htwoBytes _ _ _ n hword (by split <;> omega)
  exact ⟨speed, hspeed.trans (if_neg (by omega)), hdecode⟩

/-! ## The duty of a magnitude -/

theorem mapSpeed_natCast_duty_val (m : Nat) :
    (mapSpeed m).duty.val = if m = 0 then 0 else max (min 100 (m * 100 / 32767)) 40 := by
  rw [mapSpeed_duty, dutyOf_val, Int.natAbs_natCast]

/-- The quotient reaches `k` at the ceiling of `k * 32767 / 100`. -/
theorem le_scaled_iff (k m : Nat) : k ≤ m * 100 / 32767 ↔ (k * 32767 + 99) / 100 ≤ m := by
  omega

theorem scaled_eq_full_iff {m : Nat} (h : m ≤ 32767) : m * 100 / 32767 = 100 ↔ m = 32767 := by
  omega

/-- Settles O11: a duty above the floor is the quotient, which reaches each duty at its
breakpoint. -/
theorem dutyBreakpoints : Obligations.DutyBreakpoints := by
  refine ⟨fun k m _ _ => le_scaled_iff k m, fun m hlo hhi => ?floor, fun m k hlo hhi => ?between,
    fun m hm => ?full⟩
  case floor =>
    rw [Fin.ext_iff, mapSpeed_natCast_duty_val, if_neg (by omega)]
    change _ = 40
    omega
  case between =>
    have hreach := le_scaled_iff k m
    have hpass := le_scaled_iff (k + 1) m
    rw [mapSpeed_natCast_duty_val]
    split <;> omega
  case full =>
    have hscaled := scaled_eq_full_iff hm
    rw [Fin.ext_iff, mapSpeed_natCast_duty_val]
    change _ = 100 ↔ _
    split <;> omega

/-- Settles O12: a 16-bit speed has a magnitude of at most 32768. -/
theorem mapperArithmeticIsSafe : Obligations.MapperArithmeticIsSafe := by
  refine ⟨fun speed => ?bounds, fun m hm => scaled_eq_full_iff hm, by decide, by decide⟩
  have hlo : -32768 ≤ speed.toInt := BitVec.le_toInt speed
  have hhi : speed.toInt < 32768 := BitVec.toInt_lt
  omega

end Sys2Proof.Machine
end

section
/-! PROOFS. The four reports in phase `POLL` (40_decoder.md section 2; 43_control_loop.md section 2):
completion and whole result. -/

namespace Sys2Proof.Machine

/-! ## A report by what it selects -/

section
variable {i : Instr} {speed : Speed} {cur : DriveCommand} {s : State}
  (hi : speedOf i = some speed) (hphase : s.phase = .poll)
include hi hphase

theorem exec_report : exec i s = .next (acceptSpeed speed s) := by
  rw [exec_of_speedOf s hi, reportStep_poll speed hphase]

theorem exec_report_same (hsame : s.lastSpeed.toInt = speed.toInt) : exec i s = .next s := by
  rw [exec_report hi hphase, acceptSpeed_same (BitVec.eq_of_toInt_eq hsame).symm]

variable (hne : s.lastSpeed.toInt ≠ speed.toInt) (hcur : mapSpeed speed.toInt = cur)
include hne hcur

theorem exec_report_commits {op : Operation} (hop : classify s.last cur = op) (hkick : op ≠ .kick) :
    exec i s = .next ((s.play (operationEvents cur op)).commit speed cur) := by
  subst hcur hop
  have hspeed : speed ≠ s.lastSpeed := fun h => hne (congrArg BitVec.toInt h.symm)
  rw [exec_report hi hphase, acceptSpeed_of_not_kick hspeed hkick]

theorem exec_report_kicks (hop : classify s.last cur = .kick) :
    exec i s = .next (beginKick speed cur s) := by
  subst hcur
  have hspeed : speed ≠ s.lastSpeed := fun h => hne (congrArg BitVec.toInt h.symm)
  rw [exec_report hi hphase, acceptSpeed_of_kick hspeed hop]

end

/-! ## The speed and the command of a report -/

theorem fwdSpeed_eq (v : BitVec 15) : fwdSpeed v = BitVec.ofNat 16 v.toNat := by
  have hv := v.isLt
  apply BitVec.eq_of_toInt_eq
  rw [fwdSpeed_toInt, BitVec.toInt_eq_toNat_cond, BitVec.toNat_ofNat]
  split <;> omega

theorem revSpeed_eq {v : BitVec 15} (h : v ≠ 0) :
    revSpeed v = BitVec.ofNat 16 (v.toNat + 32768) := by
  have hv := v.isLt
  apply BitVec.eq_of_toInt_eq
  rw [revSpeed_toInt h, BitVec.toInt_eq_toNat_cond, BitVec.toNat_ofNat]
  split <;> omega

theorem mapSpeed_eq {speed : Int} {p : Percent} {forward : Bool} (hne : speed ≠ 0)
    (hp : p.val = max (min 100 (speed.natAbs * 100 / 32767)) 40)
    (hdir : decide (0 ≤ speed) = forward) : mapSpeed speed = ⟨p, forward⟩ := by
  have hduty : (mapSpeed speed).duty = p := Fin.ext ((mapSpeed_duty_val hne).trans hp.symm)
  rw [← hduty, ← hdir]
  rfl

theorem duty_ne_zero_of_floor {p : Percent} {n : Nat} (h : p.val = max n 40) : p ≠ 0 := by
  intro hzero
  rw [hzero] at h
  have : 0 = max n 40 := h
  omega

/-! ## The statements -/

/-- Settles O17: speed 0 stops, so the operation is `T.NOP` from rest and `T.STOP` else. -/
theorem spdStopResult : Obligations.SpdStopResult := by
  intro s hphase
  have hcur : mapSpeed stopSpeed.toInt = ⟨0, true⟩ := rfl
  have hne (h : s.lastSpeed ≠ 0) : s.lastSpeed.toInt ≠ stopSpeed.toInt :=
    fun heq => h (BitVec.eq_of_toInt_eq heq)
  refine ⟨fun hsame => ?same, fun hnew hlast => ?fromRest, fun hnew hlast => ?stop⟩
  case same => exact exec_report_same rfl hphase (congrArg BitVec.toInt hsame)
  case fromRest =>
    have hop : classify s.last ⟨0, true⟩ = .nop :=
      (classify_nop_iff _ _).mpr ⟨rfl, (stopped_iff_duty_eq_zero _).mpr hlast⟩
    rw [exec_report_commits rfl hphase (hne hnew) hcur hop nofun, operationEvents, play_nil]
    rfl
  case stop =>
    have hop : classify s.last ⟨0, true⟩ = .stop :=
      (classify_stop_iff _ _).mpr ⟨rfl, stopped_eq_false hlast⟩
    rw [exec_report_commits rfl hphase (hne hnew) hcur hop nofun]
    rfl

/-- Settles O18: the command is forward at the duty of `v`, an update of a forward one and a
kickstart from any other. -/
theorem spdFwdResult : Obligations.SpdFwdResult := by
  intro v p s hv hphase hp
  have hspeed := fwdSpeed_toInt v
  have hpos : v.toNat ≠ 0 := fun h => hv (BitVec.eq_of_toNat_eq h)
  have hcur : mapSpeed (fwdSpeed v).toInt = ⟨p, true⟩ := by
    rw [hspeed]
    exact mapSpeed_eq (by omega) hp (decide_eq_true (by omega))
  have hdriving := duty_ne_zero_of_floor hp
  rw [← hspeed, ← fwdSpeed_eq]
  refine ⟨fun hsame => exec_report_same rfl hphase hsame, fun hne hlast hdir => ?update,
    fun hne hlast => ?kick⟩
  case update =>
    have hop : classify s.last ⟨p, true⟩ = .update := classify_update_of hdriving hlast hdir
    rw [exec_report_commits rfl hphase hne hcur hop nofun]
    rfl
  case kick =>
    have hop : classify s.last ⟨p, true⟩ = .kick :=
      classify_kick_of hdriving (hlast.imp_right fun hdir h => nomatch hdir.symm.trans h)
    rw [exec_report_kicks rfl hphase hne hcur hop, beginKick_eq_play]
    rfl

/-- Settles O19: the same in reverse, at the duty of the magnitude `32768 - v`. -/
theorem spdRevResult : Obligations.SpdRevResult := by
  intro v p s hv hphase hp
  have hspeed := revSpeed_toInt hv
  have hlt := v.isLt
  have hmagnitude : ((v.toNat : Int) - 32768).natAbs = 32768 - v.toNat := by omega
  have hcur : mapSpeed (revSpeed v).toInt = ⟨p, false⟩ := by
    rw [hspeed]
    exact mapSpeed_eq (by omega) (by rw [hmagnitude]; exact hp) (decide_eq_false (by omega))
  have hdriving := duty_ne_zero_of_floor hp
  rw [← hspeed, ← revSpeed_eq hv]
  refine ⟨fun hsame => exec_report_same rfl hphase hsame, fun hne hlast hdir => ?update,
    fun hne hlast => ?kick⟩
  case update =>
    have hop : classify s.last ⟨p, false⟩ = .update := classify_update_of hdriving hlast hdir
    rw [exec_report_commits rfl hphase hne hcur hop nofun]
    rfl
  case kick =>
    have hop : classify s.last ⟨p, false⟩ = .kick :=
      classify_kick_of hdriving (hlast.imp_right fun hdir h => nomatch hdir.symm.trans h)
    rw [exec_report_kicks rfl hphase hne hcur hop, beginKick_eq_play]
    rfl

/-- Settles O21: both carry the speed -32767. -/
theorem negmaxActsAsFullReverse : Obligations.NegmaxActsAsFullReverse := by
  intro s
  have hspeed : speedOf (.spdRev 1) = speedOf .spdNegmax := by decide
  rw [exec_of_speedOf s (i := .spdNegmax) rfl, exec_of_speedOf s (hspeed.trans rfl)]

/-- Settles O20: it acts as `SPD.REV 1`, at full duty. -/
theorem spdNegmaxResult : Obligations.SpdNegmaxResult := by
  intro s hphase
  rw [negmaxActsAsFullReverse s]
  exact spdRevResult 1 100 s (by decide) hphase (by decide)

end Sys2Proof.Machine
end

section
/-! PROOFS. The three events of the control loop (43_control_loop.md section 2), and how a step finds
its event (log 1 to log 5). -/

namespace Sys2Proof.Machine

open Sys2Proof.Safety

theorem phase_ne_kick {s : State} (h : s.phase = .poll) : s.phase ≠ .kick := by
  rw [h]; nofun

/-! ## Polls -/

/-- A poll that decodes to nothing, be it of no report or of a malformed one. -/
theorem react_poll_nothing {r : Option (List Byte)} {s : State} (hphase : s.phase = .poll)
    (hr : r.bind decodeSpeed = none) : react (.poll r) s = .next s := by
  change pollEvent r s = _
  rw [pollEvent_poll r hphase, hr]

theorem react_poll_speed {buf : List Byte} {speed : Speed} {s : State} (hphase : s.phase = .poll)
    (hbuf : decodeSpeed buf = some speed) :
    react (.poll (some buf)) s = .next (acceptSpeed speed s) := by
  change pollEvent (some buf) s = _
  rw [pollEvent_poll _ hphase, Option.bind_some, hbuf]

theorem react_poll_kick {s : State} (hphase : s.phase = .kick) (r : Option (List Byte)) :
    react (.poll r) s = .refused .pollInKick :=
  pollEvent_kick r hphase

theorem react_poll_decoded {bytes : List Byte} {i : Instr} {s : State} (hphase : s.phase = .poll)
    (hdecode : decode .report bytes = .ok i) : react (.poll (some bytes)) s = exec i s := by
  change pollEvent (some bytes) s = _
  rw [pollEvent, hphase]
  simp only [handleAnswer, hdecode]

/-- Poll reads its answer through `decodeSpeed` alone, in either phase. -/
theorem react_poll_congr {r r' : Option (List Byte)} (h : r.bind decodeSpeed = r'.bind decodeSpeed)
    (s : State) : react (.poll r) s = react (.poll r') s := by
  cases hphase : s.phase with
  | kick => rw [react_poll_kick hphase, react_poll_kick hphase]
  | poll =>
    change pollEvent r s = pollEvent r' s
    rw [pollEvent_poll r hphase, pollEvent_poll r' hphase, h]

/-! ## Ticks -/

theorem react_tick (s : State) : react .tick s = .next (tickEvent s) := rfl

theorem tickEvent_poll {s : State} (hphase : s.phase = .poll) : tickEvent s = s := by
  rw [tickEvent, hphase]

theorem tickEvent_counts {s : State} (hphase : s.phase = .kick) (hrem : s.kickRem ≠ 1) :
    tickEvent s = { s with kickRem := s.kickRem - 1 } := by
  obtain ⟨hpoll, -⟩ | ⟨-, -, e⟩ | ⟨-, hone, -⟩ := tickEvent_cases s
  · exact absurd hphase (phase_ne_kick hpoll)
  · exact e
  · exact absurd hone hrem

theorem tickEvent_settles {s : State} (hphase : s.phase = .kick) (hrem : s.kickRem = 1) :
    tickEvent s = finishKick { s with kickRem := 0 } := by
  obtain ⟨hpoll, -⟩ | ⟨-, hne, -⟩ | ⟨-, -, e⟩ := tickEvent_cases s
  · exact absurd hphase (phase_ne_kick hpoll)
  · exact absurd hrem hne
  · exact e

/-- Step 3 on the channel of each direction (43_control_loop.md R104). -/
theorem finishKick_forward {s : State} (h : s.tgtFwd = true) :
    finishKick s =
      { s with
        phase := .poll
        chA := .duty s.tgtDuty
        out := s.out ++ [.duty .A s.tgtDuty]
        lastSpeed := s.tgtSpeed
        lastDuty := s.tgtDuty
        lastFwd := true } := by
  rw [finishKick_eq_play, active_forward (c := s.tgt) h, ← h]
  rfl

theorem finishKick_reverse {s : State} (h : s.tgtFwd = false) :
    finishKick s =
      { s with
        phase := .poll
        chB := .duty s.tgtDuty
        out := s.out ++ [.duty .B s.tgtDuty]
        lastSpeed := s.tgtSpeed
        lastDuty := s.tgtDuty
        lastFwd := false } := by
  rw [finishKick_eq_play, active_reverse (c := s.tgt) h, ← h]
  rfl

/-! ## Steps -/

theorem step_scheduled {s : State} {t : Turn} {ts : List Turn} (hport : s.chPort = none)
    (hturns : s.turns = t :: ts) : step s = turnMove t { s with turns := ts } := by
  rw [step_of_port_none hport, takeTurn_cons s t ts hturns]

theorem blockMove_poll {s : State} (hphase : s.phase = .poll) :
    blockMove s = react (.poll s.takeAnswer.1) s.takeAnswer.2 := by
  rw [blockMove, hphase]

theorem blockMove_kick {s : State} (hphase : s.phase = .kick) : blockMove s = .next s := by
  rw [blockMove, hphase]

theorem step_polls {s : State} {r : Option (List Byte)} {ts : List Turn}
    {rs : List (Option (List Byte))} (hport : s.chPort = none) (hphase : s.phase = .poll)
    (hturns : s.turns = .block :: ts) (hanswers : s.answers = r :: rs) :
    step s = react (.poll r) { s with turns := ts, answers := rs } := by
  rw [step_scheduled hport hturns, turnMove,
    blockMove_poll (s := { s with turns := ts }) hphase,
    takeAnswer_cons { s with turns := ts } r rs hanswers]

theorem step_performs {s : State} {bytes : List Byte} {i : Instr} (hport : s.chPort = some bytes)
    (hdecode : decode .channel bytes = .ok i) : step s = exec i { s with chPort := none } := by
  rw [step, advance, hport]
  simp only [performPortWord, hdecode]

/-! ## Table words -/

theorem decode_of_decodeTableWord {nbits w : Nat} {port : Port} {bytes : List Byte} {i : Instr}
    (hbytes : tableBytes nbits w = some (port, bytes)) (h : decodeTableWord nbits w = some i) :
    decode port bytes = .ok i := by
  simp only [decodeTableWord, hbytes] at h
  cases hd : decode port bytes with
  | ok j => rw [hd] at h; rw [Option.some.inj h]
  | rejected r => rw [hd] at h; cases h

/-! ## The statements on polls -/

/-- Settles O25: with no report or a malformed one a poll has no speed to accept, and the step that
makes it has taken one turn and one answer. -/
theorem nothingToDoChangesNothing : Obligations.NothingToDoChangesNothing := by
  intro s r hphase hr
  have hnothing : r.bind decodeSpeed = none := by
    obtain rfl | ⟨buf, rfl, hbuf⟩ := hr
    · rfl
    · exact hbuf
  refine ⟨react_poll_nothing hphase hnothing, fun ts rs hport hturns hanswers => ?_⟩
  rw [step_polls hport hphase hturns hanswers]
  exact react_poll_nothing (s := { s with turns := ts, answers := rs }) hphase hnothing

/-- Settles O26: the speed is accepted without effect. -/
theorem unchangedSpeedChangesNothing : Obligations.UnchangedSpeedChangesNothing := by
  intro s buf hphase hbuf
  rw [react_poll_speed hphase hbuf, acceptSpeed_same rfl]

/-- Settles O39: poll and iteration read a report through `decodeSpeed` alone. -/
theorem onlyTheDecodedSpeedMatters : Obligations.OnlyTheDecodedSpeedMatters := by
  intro s b b' h
  have hbind : (some b).bind decodeSpeed = (some b').bind decodeSpeed := h
  exact ⟨react_poll_congr hbind s, by rw [iterate, iterate, hbind]⟩

/-- Settles O24: a report plays the events of its operation, and then commits or latches. -/
theorem reportFrame : Obligations.ReportFrame := by
  intro i s t hport h
  obtain ⟨speed, hspeed⟩ := Option.isSome_iff_exists.mp ((speedOf_isSome i).mpr hport)
  rw [exec_of_speedOf s hspeed] at h
  have hphase : s.phase = .poll := by
    cases hp : s.phase with
    | poll => rfl
    | kick => rw [reportStep_kick speed hp] at h; cases h
  rw [reportStep_poll speed hphase] at h
  cases h
  obtain ⟨hturns, hanswers, hfree, hchPort⟩ := acceptSpeed_environment speed s
  refine ⟨hturns, hanswers, hfree, hchPort, ?_⟩
  by_cases hsame : speed = s.lastSpeed
  case pos =>
    rw [acceptSpeed_same hsame]
    exact ⟨fun _ => ⟨rfl, rfl, rfl⟩, fun _ => rfl, [], (List.append_nil _).symm, rfl⟩
  by_cases hop : classify s.last (mapSpeed speed.toInt) = .kick
  case pos =>
    rw [acceptSpeed_of_kick hsame hop, beginKick_eq_play]
    exact ⟨nofun, fun _ => rfl, _, rfl, play_ch s _⟩
  case neg =>
    rw [acceptSpeed_of_not_kick hsame hop]
    exact ⟨fun _ => ⟨rfl, rfl, rfl⟩, fun hkick => absurd hkick (phase_ne_kick hphase), _, rfl,
      (commit_ch _ _ _).trans (play_ch s _)⟩

/-- Settles O27: the two commands being equal and driving, the operation is `T.UPDATE`. -/
theorem sameDutyStillRewrites : Obligations.SameDutyStillRewrites := by
  intro s buf speed hphase hbuf hne hcur hlast
  have hdriving : s.lastDuty ≠ 0 := Fin.pos_iff_ne_zero.mp hlast
  have hop : classify s.last s.last = .update := classify_update_of hdriving hdriving rfl
  rw [react_poll_speed hphase hbuf, acceptSpeed_of_not_kick hne (by rw [hcur, hop]; nofun), hcur,
    hop]
  refine ⟨_, rfl, hphase, rfl, rfl, rfl, ?_, ?_⟩
  · rw [commit_ch, play_ch]
    exact replay_drive_active s.last _ s.ch
  · rw [commit_ch, play_ch]
    exact replay_drive_inactive s.last _ s.ch

/-- Settles O35: from rest at speed 0 another speed drives, and a stopped command kicks then. -/
theorem firstDriveIsAKick : Obligations.FirstDriveIsAKick := by
  intro s r hphase hspeed hduty
  cases hr : r.bind decodeSpeed with
  | none => exact .inl (react_poll_nothing hphase hr)
  | some speed =>
    obtain ⟨buf, rfl, hbuf⟩ := Option.bind_eq_some_iff.mp hr
    by_cases hsame : speed = s.lastSpeed
    case pos => exact .inl (by rw [react_poll_speed hphase hbuf, acceptSpeed_same hsame])
    have hne : speed ≠ 0 := hspeed ▸ hsame
    have hdriving : stopped (mapSpeed speed.toInt) = false :=
      Bool.eq_false_iff.mpr fun h => hne (BitVec.eq_of_toInt_eq ((stopped_mapSpeed _).mp h))
    have hop : classify s.last (mapSpeed speed.toInt) = .kick :=
      (classify_kick_iff _ _).mpr ⟨hdriving, .inl ((stopped_iff_duty_eq_zero s.last).mpr hduty)⟩
    refine .inr ⟨buf, speed, beginKick speed (mapSpeed speed.toInt) s, rfl, hbuf, hne, ?_, rfl, rfl,
      beginKick_out _ _ _⟩
    rw [react_poll_speed hphase hbuf, acceptSpeed_of_kick hsame hop]

/-- A kickstart does not yet update ControllerState (43_control_loop.md R103). -/
theorem controller_beginKick (speed : Speed) (cur : DriveCommand) (s : State) :
    controller (beginKick speed cur s) = controller s := by
  rw [beginKick_eq_play]; rfl

/-- The classification does not look at the direction of a stopped command. -/
theorem classify_of_stopped_last {last last' : DriveCommand} (h : stopped last = true)
    (h' : stopped last' = true) (cur : DriveCommand) : classify last cur = classify last' cur := by
  simp only [classify, h, h', if_true]

/-- Settles O37: the same operation is selected; `T.NOP` commits over the bit, and a kickstart, the
only other operation from rest, keeps it. -/
theorem directionOfAStoppedCommandIsIrrelevant :
    Obligations.DirectionOfAStoppedCommandIsIrrelevant := by
  intro s t r b hduty h
  obtain ⟨hphase, ⟨hr, rfl⟩ | ⟨buf, speed, rfl, hbuf, rfl⟩⟩ := pollEvent_next h
  case inl => exact .inr ⟨rfl, react_poll_nothing (s := { t with lastFwd := b }) hphase hr⟩
  rw [react_poll_speed (s := { s with lastFwd := b }) hphase hbuf]
  by_cases hsame : speed = s.lastSpeed
  case pos =>
    rw [acceptSpeed_same hsame, acceptSpeed_same (s := { s with lastFwd := b }) hsame]
    exact .inr ⟨rfl, rfl⟩
  have hstopped : stopped s.last = true := (stopped_iff_duty_eq_zero s.last).mpr hduty
  have hclass : classify ({ s with lastFwd := b } : State).last (mapSpeed speed.toInt) =
      classify s.last (mapSpeed speed.toInt) :=
    classify_of_stopped_last (last := ({ s with lastFwd := b } : State).last) hstopped hstopped _
  by_cases hop : classify s.last (mapSpeed speed.toInt) = .kick
  case pos =>
    rw [acceptSpeed_of_kick hsame hop,
      acceptSpeed_of_kick (s := { s with lastFwd := b }) hsame (hclass.trans hop)]
    simp only [beginKick_eq_play]
    exact .inr ⟨rfl, rfl⟩
  case neg =>
    rw [acceptSpeed_of_not_kick hsame hop,
      acceptSpeed_of_not_kick (s := { s with lastFwd := b }) hsame (by rwa [hclass]), hclass]
    exact .inl rfl

/-- Settles O38: the operation and its events are those of the pair of commands. -/
theorem decisionsIgnoreTheChannels : Obligations.DecisionsIgnoreTheChannels := by
  intro s s' t r hcontroller hphases h
  have hspeed : s.lastSpeed = s'.lastSpeed := congrArg Prod.fst hcontroller
  have hlast : s.last = s'.last :=
    congrArg (fun c : Speed × Percent × Bool => DriveCommand.mk c.2.1 c.2.2) hcontroller
  obtain ⟨hphase, ⟨hr, rfl⟩ | ⟨buf, speed, rfl, hbuf, rfl⟩⟩ := pollEvent_next h
  case inl =>
    exact ⟨s', [], react_poll_nothing (hphases.symm.trans hphase) hr, (List.append_nil _).symm,
      (List.append_nil _).symm, hcontroller, hphases, fun hkick => absurd hkick (phase_ne_kick hphase)⟩
  rw [react_poll_speed (hphases.symm.trans hphase) hbuf]
  by_cases hsame : speed = s.lastSpeed
  case pos =>
    rw [acceptSpeed_same hsame, acceptSpeed_same (hsame.trans hspeed)]
    exact ⟨s', [], rfl, (List.append_nil _).symm, (List.append_nil _).symm, hcontroller, hphases,
      fun hkick => absurd hkick (phase_ne_kick hphase)⟩
  have hnew : speed ≠ s'.lastSpeed := hspeed ▸ hsame
  by_cases hop : classify s.last (mapSpeed speed.toInt) = .kick
  case pos =>
    rw [acceptSpeed_of_kick hsame hop, acceptSpeed_of_kick hnew (hlast ▸ hop)]
    refine ⟨_, _, rfl, beginKick_out _ _ _, beginKick_out _ _ _, ?_, rfl, fun _ => ⟨rfl, rfl, rfl⟩⟩
    rw [controller_beginKick, controller_beginKick, hcontroller]
  case neg =>
    rw [acceptSpeed_of_not_kick hsame hop, acceptSpeed_of_not_kick hnew (hlast ▸ hop), hlast]
    exact ⟨_, _, rfl, rfl, rfl, rfl, hphases, fun hkick => absurd hkick (phase_ne_kick hphase)⟩

/-! ## The statements on ticks and reset -/

/-- Settles O29: the count, or at its end step 3 on the target's channel and the commit. -/
theorem tickResult : Obligations.TickResult := by
  intro s
  refine ⟨fun hphase => congrArg _ (tickEvent_poll hphase),
    fun hphase hrem => congrArg _ (tickEvent_counts hphase hrem),
    fun hphase hrem hdir => ?forward, fun hphase hrem hdir => ?reverse⟩
  case forward =>
    rw [react_tick, tickEvent_settles hphase hrem,
      finishKick_forward (s := { s with kickRem := 0 }) hdir]
  case reverse =>
    rw [react_tick, tickEvent_settles hphase hrem,
      finishKick_reverse (s := { s with kickRem := 0 }) hdir]

/-- Settles O34: the reset values, and the environment's side of the state. -/
theorem resetResult : Obligations.ResetResult := fun _ => rfl

/-! ## The statements on one step -/

/-- Settles O45: each way to the decoder ends in `exec` of what it reads. -/
theorem stepRunsTheDecodedInstruction : Obligations.StepRunsTheDecodedInstruction := by
  have hreport (s : State) (bytes : List Byte) (i : Instr) (ts : List Turn)
      (rs : List (Option (List Byte))) (hport : s.chPort = none) (hphase : s.phase = .poll)
      (hturns : s.turns = .block :: ts) (hanswers : s.answers = some bytes :: rs)
      (hdecode : decode .report bytes = .ok i) :
      step s = exec i { s with turns := ts, answers := rs } := by
    rw [step_polls hport hphase hturns hanswers]
    exact react_poll_decoded (s := { s with turns := ts, answers := rs }) hphase hdecode
  refine ⟨hreport, fun s bytes i => step_performs, fun s w i h => ?placedReport,
    fun s w i h => ?placedWord⟩
  case placedReport =>
    exact hreport (s.withFetchWord 16 w) _ i s.turns s.answers rfl rfl rfl rfl
      (decode_of_decodeTableWord rfl h)
  case placedWord =>
    exact step_performs (s := s.withFetchWord 8 w) rfl (decode_of_decodeTableWord rfl h)

/-- Settles O46: the head of a schedule, or a free value where it is used up. -/
theorem stepAsksTheEnvironment : Obligations.StepAsksTheEnvironment := by
  intro s hport
  refine ⟨fun ts hturns => step_scheduled hport hturns, fun ts hturns => step_scheduled hport hturns,
    fun hturns => ?freeTurn, fun ts r rs hturns hphase => step_polls hport hphase hturns,
    fun ts hturns hphase hanswers => ?freeAnswer⟩
  case freeTurn => rw [step_of_port_none hport, State.takeTurn, hturns]
  case freeAnswer =>
    refine ⟨(Config.freeAnswer s.freeIx).map (List.take Config.maxPollLen), fun bytes h => ?bound,
      ?step⟩
    case bound =>
      obtain ⟨free, -, rfl⟩ := Option.map_eq_some_iff.mp h
      exact List.length_take_le _ _
    case step =>
      rw [step_scheduled hport hturns, turnMove, blockMove_poll (s := { s with turns := ts }) hphase,
        State.takeAnswer]
      simp only [hanswers]

/-! ## The statement on one clock -/

theorem pinsAnswer_length {p : PinsIn} {bytes : List Byte} (h : pinsAnswer p = some bytes) :
    bytes.length = p.rptLen := by
  unfold pinsAnswer at h
  split at h
  · cases h
    simp only [List.length_take, List.length_append, List.length_cons, List.length_nil,
      List.length_replicate]
    omega
  · cases h

/-- A report of another length than 2 has no speed, whatever bytes stand on the pins. -/
theorem pinsAnswer_nothing {p : PinsIn} (h : p.rptLen ≠ 2) :
    (pinsAnswer p).bind decodeSpeed = none := by
  cases hanswer : pinsAnswer p with
  | none => rfl
  | some bytes => exact decodeSpeed_other_length ((pinsAnswer_length hanswer).trans_ne h)

/-- The loop sees the report pins only where they carry a report of two bytes. -/
theorem react_pinsAnswer_congr {p p' : PinsIn} (hvalid : p'.rptValid = p.rptValid)
    (hlen : p'.rptLen = p.rptLen)
    (hbytes : p.rptValid = true → p.rptLen = 2 → p'.rptB0 = p.rptB0 ∧ p'.rptB1 = p.rptB1)
    (s : State) : react (.poll (pinsAnswer p')) s = react (.poll (pinsAnswer p)) s := by
  by_cases htwo : p.rptLen = 2
  case neg =>
    exact react_poll_congr
      ((pinsAnswer_nothing (hlen.trans_ne htwo)).trans (pinsAnswer_nothing htwo).symm) s
  have hsame : pinsAnswer p' = pinsAnswer p := by
    rw [pinsAnswer, pinsAnswer, hvalid, hlen]
    cases hv : p.rptValid with
    | false => rfl
    | true =>
      obtain ⟨h0, h1⟩ := hbytes hv htwo
      rw [h0, h1]
  rw [hsame]

theorem clock_reset {p : PinsIn} (h : p.rst = true) (s : State) : clock p s = react .reset s := by
  rw [clock, if_pos h]

/-- The tick that comes first does nothing in phase `POLL`. -/
theorem clock_poll {p : PinsIn} {s : State} (h : p.rst = false) (hphase : s.phase = .poll) :
    clock p s = react (.poll (pinsAnswer p)) s := by
  rw [clock, if_neg (Bool.eq_false_iff.mp h), hphase, tickEvent_poll hphase, ite_self]

theorem clock_kick {p : PinsIn} {s : State} (h : p.rst = false) (hphase : s.phase = .kick) :
    clock p s = .next (if p.tick1ms then tickEvent s else s) := by
  rw [clock, if_neg (Bool.eq_false_iff.mp h), hphase]

/-- Settles O49: a clock is read off `rst`, the phase and `tick_1ms`, and its poll sees a report of two
bytes or nothing. -/
theorem clockIsOneEvent : Obligations.ClockIsOneEvent := by
  intro p s
  refine ⟨fun hrst => clock_reset hrst s, fun hrst hphase => clock_poll hrst hphase,
    fun hrst hphase htick => ?tick, fun hrst hphase htick => ?nothing,
    fun p' hrst' htick' hvalid hlen hbytes => ?unread⟩
  case tick => rw [clock_kick hrst hphase, if_pos htick, react_tick]
  case nothing => rw [clock_kick hrst hphase, if_neg (Bool.eq_false_iff.mp htick)]
  case unread =>
    cases hrst : p.rst with
    | true => rw [clock_reset (hrst'.trans hrst), clock_reset hrst]
    | false =>
      cases hphase : s.phase with
      | poll =>
        rw [clock_poll (hrst'.trans hrst) hphase, clock_poll hrst hphase,
          react_pinsAnswer_congr hvalid hlen hbytes]
      | kick => rw [clock_kick (hrst'.trans hrst) hphase, clock_kick hrst hphase, htick']

end Sys2Proof.Machine
end

section
/-! PROOFS. Runs of many steps (43_control_loop.md sections 2 and 3): the ticks of a kickstart, the loop
iteration as one big step, and scheduled items as their events. -/

namespace Sys2Proof.Machine

open Sys2Proof.Safety

/-! ## No event reads the schedule -/

theorem tickEvent_withEnvironment (s : State) (ts : List Turn) (rs : List (Option (List Byte)))
    (n : Nat) : tickEvent (s.withEnvironment ts rs n) = (tickEvent s).withEnvironment ts rs n := by
  obtain ⟨hphase, e⟩ | ⟨hphase, hrem, e⟩ | ⟨hphase, hrem, e⟩ := tickEvent_cases s
  · rw [e]
    exact tickEvent_poll (s := s.withEnvironment ts rs n) hphase
  · rw [e]
    exact tickEvent_counts (s := s.withEnvironment ts rs n) hphase hrem
  · rw [e, tickEvent_settles (s := s.withEnvironment ts rs n) hphase hrem]
    simp only [finishKick_eq_play]
    rfl

theorem acceptSpeed_withEnvironment (speed : Speed) (s : State) (ts : List Turn)
    (rs : List (Option (List Byte))) (n : Nat) :
    acceptSpeed speed (s.withEnvironment ts rs n) =
      (acceptSpeed speed s).withEnvironment ts rs n := by
  by_cases hsame : speed = s.lastSpeed
  case pos =>
    rw [acceptSpeed_same hsame]
    exact acceptSpeed_same (s := s.withEnvironment ts rs n) hsame
  by_cases hop : classify s.last (mapSpeed speed.toInt) = .kick
  case pos =>
    rw [acceptSpeed_of_kick hsame hop,
      acceptSpeed_of_kick (s := s.withEnvironment ts rs n) hsame hop]
    simp only [beginKick_eq_play]
    rfl
  case neg =>
    rw [acceptSpeed_of_not_kick hsame hop]
    exact acceptSpeed_of_not_kick (s := s.withEnvironment ts rs n) hsame hop

theorem react_withEnvironment {e : Event} {s t : State} (h : react e s = .next t) (ts : List Turn)
    (rs : List (Option (List Byte))) (n : Nat) :
    react e (s.withEnvironment ts rs n) = .next (t.withEnvironment ts rs n) := by
  cases e with
  | reset => cases h; rfl
  | tick => cases h; rw [react_tick, tickEvent_withEnvironment]
  | poll r =>
    obtain ⟨hphase, ⟨hr, rfl⟩ | ⟨buf, speed, rfl, hbuf, rfl⟩⟩ := pollEvent_next h
    · exact react_poll_nothing (s := t.withEnvironment ts rs n) hphase hr
    · rw [← acceptSpeed_withEnvironment]
      exact react_poll_speed (s := s.withEnvironment ts rs n) hphase hbuf

/-! ## The end of a kickstart -/

theorem finishKick_out (s : State) :
    (finishKick s).out = s.out ++ [.duty (active s.tgt) s.tgtDuty] := by
  rw [finishKick_eq_play]; rfl

theorem finishKick_ch (s : State) :
    (finishKick s).ch = replayEvent s.ch (.duty (active s.tgt) s.tgtDuty) := by
  rw [finishKick_eq_play]
  exact play_ch s _

theorem controller_finishKick (s : State) :
    controller (finishKick s) = (s.tgtSpeed, s.tgtDuty, s.tgtFwd) := by
  rw [finishKick_eq_play]; rfl

theorem finishKick_phase (s : State) : (finishKick s).phase = .poll := rfl

theorem finishKick_kickRem (s : State) : (finishKick s).kickRem = s.kickRem := by
  rw [finishKick_eq_play]; rfl

/-! ## Many ticks -/

theorem tickEvent_iterate_poll {s : State} (hphase : s.phase = .poll) (n : Nat) :
    tickEvent^[n] s = s :=
  Function.iterate_fixed (tickEvent_poll hphase) n

theorem tickEvent_iterate_counts {s : State} (hphase : s.phase = .kick) {m : Nat}
    (hm : m < s.kickRem.toNat) :
    tickEvent^[m] s = { s with kickRem := BitVec.ofNat 8 (s.kickRem.toNat - m) } := by
  induction m with
  | zero => rw [Nat.sub_zero, BitVec.ofNat_toNat, BitVec.setWidth_eq]; rfl
  | succ m ih =>
    have hrem := s.kickRem.isLt
    have hne : BitVec.ofNat 8 (s.kickRem.toNat - m) ≠ 1 := by bv_omega
    have hcount : BitVec.ofNat 8 (s.kickRem.toNat - m) - 1 =
        BitVec.ofNat 8 (s.kickRem.toNat - (m + 1)) := by bv_omega
    rw [Function.iterate_succ_apply', ih (by omega), ← hcount]
    exact tickEvent_counts (s := { s with kickRem := _ }) hphase hne

theorem tickEvent_iterate_settles {s : State} (hphase : s.phase = .kick)
    (hrem : 1 ≤ s.kickRem.toNat) :
    tickEvent^[s.kickRem.toNat] s = finishKick { s with kickRem := 0 } := by
  obtain ⟨m, hm⟩ := Nat.exists_eq_add_of_le' hrem
  have hone : s.kickRem.toNat - m = 1 := by omega
  rw [hm, Function.iterate_succ_apply', tickEvent_iterate_counts hphase (by omega), hone]
  exact tickEvent_settles hphase rfl

/-- Ticks beyond the last one of a kickstart do nothing. -/
theorem tickEvent_iterate_of_ge {s : State} (hphase : s.phase = .kick) (hrem : 1 ≤ s.kickRem.toNat)
    {n : Nat} (hn : s.kickRem.toNat ≤ n) :
    tickEvent^[n] s = finishKick { s with kickRem := 0 } := by
  obtain ⟨k, rfl⟩ := Nat.exists_eq_add_of_le' hn
  rw [Function.iterate_add_apply, tickEvent_iterate_settles hphase hrem,
    tickEvent_iterate_poll (finishKick_phase _)]

theorem step_placed_tick {s : State} (hport : s.chPort = none) (ts : List Turn)
    (rs : List (Option (List Byte))) (k : Nat) :
    step (s.withEnvironment (.tick :: ts) rs k) = .next ((tickEvent s).withEnvironment ts rs k) := by
  rw [step_scheduled (s := s.withEnvironment (.tick :: ts) rs k) (t := .tick) (ts := ts) hport rfl,
    ← tickEvent_withEnvironment]
  rfl

/-- Scheduled ticks run as ticks, with the schedule that is left. -/
theorem run_placed_ticks (n : Nat) {s : State} (hport : s.chPort = none) (ts : List Turn)
    (rs : List (Option (List Byte))) (k : Nat) :
    Host.Core.run core n (s.withEnvironment (List.replicate n .tick ++ ts) rs k) =
      .next ((tickEvent^[n] s).withEnvironment ts rs k) := by
  induction n generalizing s with
  | zero => rfl
  | succ n ih =>
    obtain ⟨-, -, -, hkept⟩ := react_environment (react_tick s)
    exact (run_succ (step_placed_tick hport _ rs k)).trans (ih (hkept.trans hport))

theorem run_ticks {n : Nat} {s : State} {ts : List Turn} (hport : s.chPort = none)
    (hturns : s.turns = List.replicate n .tick ++ ts) :
    Host.Core.run core n s = .next ((tickEvent^[n] s).withEnvironment ts s.answers s.freeIx) := by
  have hrun := run_placed_ticks n hport ts s.answers s.freeIx
  rw [← hturns] at hrun
  exact hrun

/-! ## One iteration -/

theorem iterate_nothing {r : Option (List Byte)} {s : State} (h : r.bind decodeSpeed = none) :
    iterate r s = s := by
  rw [iterate, h]

theorem iterate_same {buf : List Byte} {s : State} (h : decodeSpeed buf = some s.lastSpeed) :
    iterate (some buf) s = s := by
  rw [iterate, Option.bind_some, h]
  exact if_pos rfl

theorem iterate_changed {buf : List Byte} {speed : Speed} {s : State}
    (hbuf : decodeSpeed buf = some speed) (hne : speed ≠ s.lastSpeed) :
    iterate (some buf) s =
      (runSequence s.last (mapSpeed speed.toInt) s).commit speed (mapSpeed speed.toInt) := by
  rw [iterate, Option.bind_some, hbuf]
  exact if_neg hne

/-- A poll that leaves phase `POLL` alone has already made the iteration. -/
theorem ticks_refine_of_poll {u v : State} (hphase : u.phase = .poll) (h : u = v) :
    (tickEvent^[150] u).phase = .poll ∧ Agree (tickEvent^[150] u) v := by
  subst h
  rw [tickEvent_iterate_poll hphase]
  exact ⟨hphase, rfl, rfl, rfl, rfl⟩

/-- After a kickstart begun, 150 ticks play what the big step has played at once. -/
theorem ticks_refine_of_kick (s : State) (speed : Speed) {cur : DriveCommand}
    (hop : classify s.last cur = .kick) :
    (tickEvent^[150] (beginKick speed cur s)).phase = .poll ∧
      Agree (tickEvent^[150] (beginKick speed cur s))
        ((runSequence s.last cur s).commit speed cur) := by
  have hticks : tickEvent^[150] (beginKick speed cur s) =
      finishKick { beginKick speed cur s with kickRem := 0 } :=
    tickEvent_iterate_settles (s := beginKick speed cur s) rfl
      (by decide : 1 ≤ (150 : BitVec 8).toNat)
  rw [hticks, runSequence_of_kick s hop, beginKick_eq_play, finishKick_eq_play]
  exact ⟨rfl, List.append_assoc _ _ _, rfl, rfl, rfl⟩

theorem poll_and_ticks_refine {s : State} (hphase : s.phase = .poll) (r : Option (List Byte)) :
    ∃ u, react (.poll r) s = .next u ∧ (tickEvent^[150] u).phase = .poll ∧
      Agree (tickEvent^[150] u) (iterate r s) := by
  cases hr : r.bind decodeSpeed with
  | none =>
    exact ⟨s, react_poll_nothing hphase hr, ticks_refine_of_poll hphase (iterate_nothing hr).symm⟩
  | some speed =>
    obtain ⟨buf, rfl, hbuf⟩ := Option.bind_eq_some_iff.mp hr
    refine ⟨_, react_poll_speed hphase hbuf, ?_⟩
    by_cases hsame : speed = s.lastSpeed
    case pos =>
      rw [acceptSpeed_same hsame]
      exact ticks_refine_of_poll hphase (iterate_same (hsame ▸ hbuf)).symm
    rw [iterate_changed hbuf hsame]
    by_cases hop : classify s.last (mapSpeed speed.toInt) = .kick
    case pos =>
      rw [acceptSpeed_of_kick hsame hop]
      exact ticks_refine_of_kick s speed hop
    case neg =>
      rw [acceptSpeed_of_not_kick hsame hop, runSequence_of_not_kick s hop]
      exact ticks_refine_of_poll hphase rfl

/-! ## The statements on ticks -/

/-- Settles O30: the ticks are one count each, and the last is the end of the wait. -/
theorem kickLastsExactlyItsTicks : Obligations.KickLastsExactlyItsTicks := by
  intro s n ts hport hphase hn hpos
  subst hn
  refine ⟨fun m hm hturns => ?counting, fun hturns => ?settled⟩
  case counting =>
    rw [run_ticks hport hturns, tickEvent_iterate_counts hphase hm]
    rfl
  case settled =>
    have hrun := run_ticks hport hturns
    rw [tickEvent_iterate_settles hphase hpos] at hrun
    have hch := finishKick_ch { s with kickRem := 0 }
    refine ⟨_, hrun, rfl, finishKick_kickRem { s with kickRem := 0 },
      finishKick_out { s with kickRem := 0 }, ?_, ?_,
      controller_finishKick { s with kickRem := 0 }, rfl, rfl⟩
    · exact (congrFun hch _).trans (if_pos rfl)
    · exact (congrFun hch _).trans (if_neg (inactive_ne_active s.tgt))

/-- Settles O31: the poll is the iteration but for step 3 and the commit of a kickstart, which the
150 ticks make. -/
theorem pollAndTicksRefineIterate : Obligations.PollAndTicksRefineIterate := by
  intro s r ts rs hport hphase hturns hanswers
  obtain ⟨u, hpoll, hend, hagree⟩ := poll_and_ticks_refine hphase r
  have hstep : step s = .next (u.withEnvironment (List.replicate 150 .tick ++ ts) rs s.freeIx) := by
    rw [step_polls hport hphase hturns hanswers]
    exact react_withEnvironment hpoll _ _ _
  obtain ⟨-, -, -, hkept⟩ := react_environment hpoll
  have hrun := run_placed_ticks 150 (hkept.trans hport) ts rs s.freeIx
  generalize tickEvent^[150] u = v at hrun hend hagree
  exact ⟨_, (run_succ hstep).trans hrun, hend, hagree, rfl, rfl⟩

/-! ## The statements on a step in phase `KICK` -/

/-- Without a poll no answer is read. -/
theorem step_kick_answers {s t : State} (hphase : s.phase = .kick) (hport : s.chPort = none)
    (h : step s = .next t) : t.answers = s.answers := by
  obtain ⟨-, rfl⟩ | ⟨-, rfl⟩ | ⟨-, -, rfl⟩ | ⟨-, hpoll, -⟩ := step_cases hport h
  · obtain ⟨-, hanswers, -, -⟩ := react_environment (react_tick s.takeTurn.2)
    rw [hanswers, takeTurn_answers]
  · rw [resetBlock_answers, takeTurn_answers]
  · exact takeTurn_answers s
  · exact absurd hphase (phase_ne_kick hpoll)

/-- Settles O28: a kickstart leaves the block no poll, and a count of up to 150 is used up by 150
ticks. -/
theorem noPollDuringKick : Obligations.NoPollDuringKick := by
  intro s hphase
  refine ⟨react_poll_kick hphase, fun i hi => ?report, fun hport => ?moves,
    fun hport t h => step_kick_answers hphase hport h, fun hlo hhi => ?leaves⟩
  case report =>
    obtain ⟨speed, hspeed⟩ := Option.isSome_iff_exists.mp ((speedOf_isSome i).mpr hi)
    rw [exec_of_speedOf s hspeed, reportStep_kick speed hphase]
  case moves =>
    rw [step_of_port_none hport]
    cases s.takeTurn.1 with
    | tick => exact .inl ⟨rfl, rfl⟩
    | reset => exact .inr (.inl ⟨rfl, rfl⟩)
    | block => exact .inr (.inr ⟨rfl, blockMove_kick ((takeTurn_phase s).trans hphase)⟩)
  case leaves =>
    rw [tickEvent_iterate_of_ge hphase hlo hhi]
    rfl

/-- Settles O33: in phase `KICK` the block's move passes, and a tick counts or ends the wait. -/
theorem kickIsNeverCancelled : Obligations.KickIsNeverCancelled := by
  intro s t hphase hport hmove h
  refine ⟨step_kick_answers hphase hport h, ?_⟩
  obtain ⟨ts, n, hturn⟩ := takeTurn_environment s
  obtain ⟨htick, rfl⟩ | ⟨hreset, -⟩ | ⟨-, -, rfl⟩ | ⟨-, hpoll, -⟩ := step_cases hport h
  case inl =>
    rw [hturn, tickEvent_withEnvironment]
    by_cases hrem : s.kickRem = 1
    case pos =>
      rw [tickEvent_settles hphase hrem]
      exact .inr ⟨htick, hrem, rfl, finishKick_out _, controller_finishKick _⟩
    case neg =>
      rw [tickEvent_counts hphase hrem]
      exact .inl ⟨hphase, rfl, rfl, rfl, rfl, rfl⟩
  case inr.inl => exact absurd hreset hmove
  case inr.inr.inl =>
    rw [hturn]
    exact .inl ⟨hphase, rfl, rfl, rfl, rfl, rfl⟩
  case inr.inr.inr => exact absurd hphase (phase_ne_kick hpoll)

/-! ## The statements on all steps -/

theorem takeTurn_takeAnswer_environment (s : State) :
    ∃ ts rs n, s.takeTurn.2.takeAnswer.2 = s.withEnvironment ts rs n := by
  obtain ⟨ts, n, hturn⟩ := takeTurn_environment s
  obtain ⟨rs, m, hanswer⟩ := takeAnswer_environment s.takeTurn.2
  exact ⟨s.takeTurn.2.turns, rs, m, by rw [hanswer, hturn]; rfl⟩

theorem controller_withEnvironment (s : State) (ts : List Turn) (rs : List (Option (List Byte)))
    (n : Nat) : controller (s.withEnvironment ts rs n) = controller s := rfl

/-- Settles O32: a poll that begins a kickstart, a tick that counts and a move that passes leave
ControllerState. -/
theorem controllerStateWriters : Obligations.ControllerStateWriters := by
  intro s t hport h hchanged
  obtain ⟨ts, n, hturn⟩ := takeTurn_environment s
  obtain ⟨htick, rfl⟩ | ⟨hreset, rfl⟩ | ⟨-, -, rfl⟩ | ⟨hblock, hphase, hpoll⟩ := step_cases hport h
  case inl =>
    rw [hturn, tickEvent_withEnvironment, controller_withEnvironment] at hchanged ⊢
    obtain ⟨-, e⟩ | ⟨-, -, e⟩ | ⟨hphase, hrem, e⟩ := tickEvent_cases s
    · exact absurd (congrArg controller e) hchanged
    · exact absurd (congrArg controller e) hchanged
    · exact .inr (.inr ⟨htick, hphase, hrem,
        (congrArg controller e).trans (controller_finishKick _)⟩)
  case inr.inl => exact .inl ⟨hreset, rfl⟩
  case inr.inr.inl =>
    rw [hturn] at hchanged
    exact absurd rfl hchanged
  case inr.inr.inr =>
    obtain ⟨us, rs, m, hanswer⟩ := takeTurn_takeAnswer_environment s
    rw [hanswer] at hpoll
    obtain ⟨-, ⟨-, rfl⟩ | ⟨buf, speed, hbuf, hspeed, rfl⟩⟩ := pollEvent_next hpoll
    · exact absurd rfl hchanged
    rw [acceptSpeed_withEnvironment]
    rw [acceptSpeed_withEnvironment, controller_withEnvironment] at hchanged
    have hne : speed ≠ s.lastSpeed := fun hsame =>
      hchanged (congrArg controller (acceptSpeed_same hsame))
    have hop : classify s.last (mapSpeed speed.toInt) ≠ .kick := fun hkick =>
      hchanged ((congrArg controller (acceptSpeed_of_kick hne hkick)).trans
        (controller_beginKick _ _ s))
    have hneed : needKick s.last (mapSpeed speed.toInt) = false :=
      Bool.eq_false_iff.mpr (mt (classify_kick_iff_needKick _ _).mpr hop)
    rw [acceptSpeed_of_not_kick hne hop]
    exact .inr (.inl ⟨hblock, hphase, buf, speed, hbuf, hspeed, hne, hneed, rfl, rfl⟩)

theorem step_keeps_port {s t : State} (hport : s.chPort = none) (h : step s = .next t) :
    t.chPort = none := by
  refine step_keeps (P := fun u => u.chPort = none) ?turn ?answer ?reset ?tick ?accept hport hport h
  case turn => exact fun u hu => (takeTurn_chPort u).trans hu
  case answer => exact fun u hu => (takeAnswer_chPort u).trans hu
  case reset => exact fun u hu => hu
  case tick =>
    intro u hu
    obtain ⟨-, -, -, hkept⟩ := react_environment (react_tick u)
    exact hkept.trans hu
  case accept =>
    intro u speed _ _ hu
    obtain ⟨-, -, -, hkept⟩ := acceptSpeed_environment speed u
    exact hkept.trans hu

/-- Settles O36: a step answers, and keeps the port empty. -/
theorem noRunEverStops : Obligations.NoRunEverStops := by
  intro k
  induction k with
  | zero => exact fun s hport => ⟨s, rfl, hport⟩
  | succ k ih =>
    intro s hport
    obtain ⟨u, hstep⟩ := step_answers hport
    obtain ⟨t, hrun, ht⟩ := ih u (step_keeps_port hport hstep)
    exact ⟨t, (run_succ hstep).trans hrun, ht⟩

/-! ## Scheduled items -/

/-- A placed poll item gives the next step its turn and its answer. -/
theorem step_placed_poll {i : Item} {r : Option (List Byte)} (hturn : itemTurn i = .block)
    (hanswer : itemAnswer i = [r]) (items : List Item) {s : State} (hport : s.chPort = none)
    (hphase : s.phase = .poll) :
    step (placeItems (i :: items) s) = react (.poll r) (placeItems items s) := by
  have hturns : (placeItems (i :: items) s).turns = .block :: (placeItems items s).turns := by
    rw [← hturn]
    rfl
  have hanswers : (placeItems (i :: items) s).answers = r :: (placeItems items s).answers := by
    change itemAnswer i ++ items.flatMap itemAnswer ++ s.answers = _
    rw [hanswer]
    rfl
  exact step_polls (s := placeItems (i :: items) s) hport hphase hturns hanswers

/-- A placed item is the event of the next step. A poll item comes in phase `POLL`, where it
answers. -/
theorem step_placed_event {i : Item} (items : List Item) {s u : State} (hport : s.chPort = none)
    (h : react (itemEvent i) s = .next u) :
    step (placeItems (i :: items) s) = react (itemEvent i) (placeItems items s) := by
  cases i with
  | rpt b0 b1 =>
    obtain ⟨hphase, -⟩ := pollEvent_next h
    exact step_placed_poll rfl rfl items hport hphase
  | raw bytes =>
    obtain ⟨hphase, -⟩ := pollEvent_next h
    exact step_placed_poll rfl rfl items hport hphase
  | noReport =>
    obtain ⟨hphase, -⟩ := pollEvent_next h
    exact step_placed_poll rfl rfl items hport hphase
  | tick => exact step_scheduled (s := placeItems (.tick :: items) s) hport rfl
  | reset => exact step_scheduled (s := placeItems (.reset :: items) s) hport rfl

theorem step_placeItems {i : Item} {items : List Item} {s u : State} (hport : s.chPort = none)
    (h : react (itemEvent i) s = .next u) :
    step (placeItems (i :: items) s) = .next (placeItems items u) := by
  obtain ⟨hturns, hanswers, hfree, -⟩ := react_environment h
  have hplaced : placeItems items u = u.withEnvironment (items.map itemTurn ++ s.turns)
      (items.flatMap itemAnswer ++ s.answers) s.freeIx := by
    rw [← hturns, ← hanswers, ← hfree]
    rfl
  rw [step_placed_event items hport h, hplaced]
  exact react_withEnvironment h _ _ _

/-- Settles O47: by induction on the items, one step for each. -/
theorem scheduledItemsRunAsTheirEvents : Obligations.ScheduledItemsRunAsTheirEvents := by
  intro items
  induction items with
  | nil =>
    intro s t _ h
    exact h
  | cons i items ih =>
    intro s t hport h
    rw [reactAll] at h
    cases hi : react (itemEvent i) s with
    | next u =>
      rw [hi] at h
      obtain ⟨-, -, -, hkept⟩ := react_environment hi
      exact (run_succ (step_placeItems hport hi)).trans (ih u t (hkept.trans hport) h)
    | fault r => rw [hi] at h; cases h
    | refused r => rw [hi] at h; cases h

end Sys2Proof.Machine
end
